-- ==== Sys2Proof/Word.lean ====
section
/-! DEFINITION. The byte, the one width of every operand and result of the codec (R5 BYTE_W, R27). -/

namespace Sys2Proof

/-- One byte: every field of a frame and every operand is 8 bits, unsigned (R5, R27). -/
abbrev Byte := BitVec 8

/-- `frame32`: a frame carried as one 32-bit vector (R22). -/
abbrev Word32 := BitVec 32

end Sys2Proof
end

