-- ==== Sys2Proof/Syntax.lean ====
section
/-! DEFINITION. Frames, the encoder's operand ports, the instructions (one constructor for each row of
spec/opcode_table.json) and the transactions a host can present. -/

namespace Sys2Proof

/-- The four commands, a closed set (R31). -/
inductive Command where
  | init
  | set
  | reset
  | toggle
  deriving DecidableEq, Repr, Inhabited

/-- A frame: exactly four bytes in this order (R21, R30). -/
structure Frame where
  opcode   : Byte
  address  : Byte
  data     : Byte
  checksum : Byte
  deriving DecidableEq, Repr, Inhabited

/-- The input ports of the encoder less the opcode (R11). The port `sel_len` is the length of `sel`. -/
structure EncArgs where
  baseAddress   : Byte
  offsetPresent : Bool
  cardOffset    : Byte
  selPresent    : Bool
  sel           : List Byte
  deriving DecidableEq, Repr, Inhabited

/-- All input ports of the encoder (R11). -/
structure EncPorts where
  opcode : Byte
  args   : EncArgs
  deriving DecidableEq, Repr, Inhabited

/-- The fourteen rows of the opcode table. -/
inductive Instr where
  /-- ENC.INIT (R56). -/
  | encInit (args : EncArgs)
  /-- ENC.SET (R57). -/
  | encSet (args : EncArgs)
  /-- ENC.RESET (R58). -/
  | encReset (args : EncArgs)
  /-- ENC.TOGGLE (R59). -/
  | encToggle (args : EncArgs)
  /-- FRAME.RAW, the core used on its own (R13, R54). -/
  | frameRaw (opcode address relayMask : Byte)
  /-- VALIDATE (R70). -/
  | validate (sent resp : Frame)
  /-- ACK.INIT: a response frame whose first byte is 254 (R35). -/
  | ackInit (address data checksum : Byte)
  /-- ACK.SET: a response frame whose first byte is 249 (R35). -/
  | ackSet (address data checksum : Byte)
  /-- ACK.RESET: a response frame whose first byte is 248 (R35). -/
  | ackReset (address data checksum : Byte)
  /-- ACK.TOGGLE: a response frame whose first byte is 247 (R35). -/
  | ackToggle (address data checksum : Byte)
  /-- OPDEC (R50). -/
  | opdec (opcode : Byte)
  /-- MASKGEN (R51). -/
  | maskgen (sel : List Byte)
  /-- ADDRGEN (R52). -/
  | addrgen (baseAddress : Byte) (offsetPresent : Bool) (cardOffset : Byte) (isInit : Bool)
  /-- XORSUM (R53). -/
  | xorsum (a b c : Byte)
  deriving DecidableEq, Repr

/-- What the host does next. -/
inductive Request where
  /-- A transaction (R14): the bytes of an operand word in one of the formats of the opcode table. -/
  | word (bytes : List Byte)
  /-- A transaction (R14): a drive of the encoder's ports (the notation `ENC op=...` of R39). -/
  | encode (ports : EncPorts)
  /-- The host's own doing, no transaction of the block: it has written `frame` to the transport and keeps it
  until its response arrives (R40, R108; log 21). -/
  | hold (frame : Frame)
  deriving DecidableEq, Repr

end Sys2Proof
end

