-- ==== Sys2Proof/Config.lean ====
section
/-! DEFINITION. The constants of R5, each under its name so that an audit of the literals can bind it anew
(D22, log 18), and the free values: outputs the spec gives no meaning (log 5, 6, 7, 22). -/

namespace Sys2Proof

/-- `FRAME_LEN` of R5. -/
@[simp] abbrev Config.frameLen : Nat := 4

/-- `RELAYS` of R5: relay numbers run from 1 to this. -/
@[simp] abbrev Config.relays : Nat := 8

/-- `OPC_INIT` of R5. -/
@[simp] abbrev Config.opcInit : Byte := 1#8

/-- `OPC_SET` of R5. -/
@[simp] abbrev Config.opcSet : Byte := 6#8

/-- `OPC_RESET` of R5. -/
@[simp] abbrev Config.opcReset : Byte := 7#8

/-- `OPC_TOGGLE` of R5. -/
@[simp] abbrev Config.opcToggle : Byte := 8#8

/-- `ACK_XOR` of R5. -/
@[simp] abbrev Config.ackXor : Byte := 0xFF#8

/-- `SKIP_ADDR` of R5. -/
@[simp] abbrev Config.skipAddr : Byte := 0#8

/-- The sentinel byte of the glossary (R6): the Device Session's, never the block's. -/
@[simp] abbrev Config.sentinel : Byte := 9#8

/-- DESIGN CHOICE (log 5). The `frame` bytes after an encode error: "no meaning (any value)" (R12, R97, U7).
A function of the transaction's inputs, because outputs depend on nothing else (R2, R10). -/
opaque Config.invalidFrame : EncPorts → Frame

/-- DESIGN CHOICE (log 6). The `got` output when `val_status` is OK: no meaning (R15, R74, U7). -/
opaque Config.idleGot : Frame → Frame → Byte

/-- DESIGN CHOICE (log 6). The `expected` output when `val_status` is OK: no meaning (R15, R74, U7). -/
opaque Config.idleExpected : Frame → Frame → Byte

/-- DESIGN CHOICE (log 7). The mask of a selector with a bad entry: no meaning (R51). -/
opaque Config.badMask : List Byte → Byte

/-- DESIGN CHOICE (log 22). What ADDRGEN's address wire carries when it faults, for a base address and a card
offset: R52 returns a fault and no address. -/
opaque Config.faultedAddress : Byte → Byte → Byte

end Sys2Proof
end

