-- ==== Sys2Proof/Machine/State.lean ====
section
/-! DEFINITION. The values on the codec's ports and on the results of its units (log 1), the host's own data, the
errors, and the state after reset. -/

namespace Sys2Proof.Machine

/-- The five errors of the encoder (R85 to R90). -/
inductive EncError where
  | invalidRelayNumber
  | missingRelaySelector
  | illegalOpcode
  | invalidCardOffset
  | addressOverflow
  deriving DecidableEq, Repr

/-- The three errors of the validator (R85, R91). -/
inductive ValError where
  | unexpectedOpcode
  | addressMismatch
  | checksumMismatch
  deriving DecidableEq, Repr

/-- An error as a unit raises it, with its payload (R85, R97). -/
inductive Raised where
  | encoder (e : EncError)
  | validator (e : ValError) (got expected : Byte)
  deriving DecidableEq, Repr

/-- Reasons a step stops the machine. There are none (log 19): every error of R85 is a status on the outputs
of its own transaction, so it is a next state (R97). Safe: nothing can be proved of a fault that no step has. -/
inductive Fault where
  deriving DecidableEq, Repr

/-- Reasons a step answers no next state. -/
inductive Refusal where
  /-- Raised by `exec` for an instruction without a meaning; no arm raises it. Safe. -/
  | notModelled (mnemonic : String)
  /-- Raised by the step for a word of `nbytes` bytes, which no unit's input can carry: it "cannot be presented"
  (R25, log 9). Safe: nothing is claimed of it. -/
  | unpresentableWord (nbytes : Nat)
  deriving DecidableEq, Repr

/-- The output ports of the encoder (R12). -/
structure EncOut where
  status     : BitVec 3
  frameValid : Bool
  frame      : Frame
  deriving DecidableEq, Repr

/-- The inputs and outputs of the core FRAME.RAW (R13). -/
structure CoreWires where
  opcode    : Byte
  address   : Byte
  relayMask : Byte
  frame     : Frame
  canonical : Bool
  deriving DecidableEq, Repr

/-- The input ports of the validator (R15). -/
structure ValIn where
  sent : Frame
  resp : Frame
  deriving DecidableEq, Repr

/-- The output ports of the validator (R15). -/
structure ValOut where
  opOk     : Bool
  addrOk   : Bool
  csumOk   : Bool
  status   : BitVec 2
  got      : Byte
  expected : Byte
  deriving DecidableEq, Repr

/-- The input and the outputs of OPDEC (R50). -/
structure OpdecWires where
  opcode : Byte
  legal  : Bool
  isInit : Bool
  deriving DecidableEq, Repr

/-- The input and the outputs of MASKGEN (R51). -/
structure MaskgenWires where
  sel  : List Byte
  mask : Byte
  bad  : Bool
  deriving DecidableEq, Repr

/-- What ADDRGEN returns: an address or a fault (R52). -/
inductive AddrResult where
  | address (a : Byte)
  | raised (e : EncError)
  deriving DecidableEq, Repr

/-- The inputs and the result of ADDRGEN (R52). -/
structure AddrgenWires where
  baseAddress   : Byte
  offsetPresent : Bool
  cardOffset    : Byte
  isInit        : Bool
  result        : AddrResult
  deriving DecidableEq, Repr

/-- The inputs and the result of XORSUM (R53). -/
structure XorsumWires where
  a   : Byte
  b   : Byte
  c   : Byte
  sum : Byte
  deriving DecidableEq, Repr

/-- The model of the host, outside the block: no unit drives it and it is no port (R3, R19). -/
structure HostSide where
  /-- The model's own (log 2): what the host does next, in order (R14). -/
  pending : List Request
  /-- The command frame the host sent and keeps until its response arrives, to present it on `sent` with that
  response (R10's table, R19, R108; log 21). -/
  held : Frame
  deriving DecidableEq, Repr

/-- The host, and the wires of the codec, each as last seen. -/
structure State where
  /-- The host's own data. -/
  host    : HostSide
  /-- Encoder input ports (R11). -/
  encIn   : EncPorts
  /-- Encoder output ports (R12). -/
  encOut  : EncOut
  /-- The core FRAME.RAW (R13). -/
  core    : CoreWires
  /-- Validator input ports (R15). -/
  valIn   : ValIn
  /-- Validator output ports (R15). -/
  valOut  : ValOut
  /-- OPDEC (R50). -/
  opdec   : OpdecWires
  /-- MASKGEN (R51). -/
  maskgen : MaskgenWires
  /-- ADDRGEN (R52). -/
  addrgen : AddrgenWires
  /-- XORSUM (R53). -/
  xorsum  : XorsumWires
  deriving DecidableEq, Repr

/-- After reset (R105; 10_state.md section 10): the host has presented nothing and holds a frame of
zeros, and undriven inputs hold zero (DESIGN CHOICE, log 4); each output holds what its rule gives for those inputs. The frame bytes, which
`frameValid = false` leaves without meaning, hold zero (DESIGN CHOICE, log 4). -/
def State.reset : State :=
  { host    := ⟨[], ⟨0#8, 0#8, 0#8, 0#8⟩⟩
    encIn   := ⟨0#8, ⟨0#8, false, 0#8, false, []⟩⟩
    encOut  := ⟨3#3, false, ⟨0#8, 0#8, 0#8, 0#8⟩⟩
    core    := ⟨0#8, 0#8, 0#8, ⟨0#8, 0#8, 0#8, 0#8⟩, false⟩
    valIn   := ⟨⟨0#8, 0#8, 0#8, 0#8⟩, ⟨0#8, 0#8, 0#8, 0#8⟩⟩
    valOut  := ⟨false, true, true, 1#2, 0x00#8, 0xFF#8⟩
    opdec   := ⟨0#8, false, false⟩
    maskgen := ⟨[], 0#8, false⟩
    addrgen := ⟨0#8, false, 0#8, false, .address 0#8⟩
    xorsum  := ⟨0#8, 0#8, 0#8, 0#8⟩ }

end Sys2Proof.Machine
end

