-- ==== Sys2Proof/Machine/Flags.lean ====
section
/-! DEFINITION. Status codes (R85), the `canonical` predicate (R54) and the validator's three flags
(R71, R72, R73). -/

namespace Sys2Proof.Machine

/-- The code of an encode error on `enc_status` (R85). -/
def EncError.code : EncError → BitVec 3
  | .invalidRelayNumber => 1#3
  | .missingRelaySelector => 2#3
  | .illegalOpcode => 3#3
  | .invalidCardOffset => 4#3
  | .addressOverflow => 5#3

/-- The code of a validation error on `val_status` (R85). -/
def ValError.code : ValError → BitVec 2
  | .unexpectedOpcode => 1#2
  | .addressMismatch => 2#2
  | .checksumMismatch => 3#2

/-- `canonical` of the core: opcode 6, 7 or 8, or opcode 1 with mask 0 (R54). -/
def canonicalBit (opcode relayMask : Byte) : Bool :=
  opcode == Config.opcSet || opcode == Config.opcReset || opcode == Config.opcToggle ||
    (opcode == Config.opcInit && relayMask == 0#8)

/-- The predicate `canonical(F)` on any four bytes (R54). -/
def frameCanonical (f : Frame) : Bool :=
  f.checksum == f.opcode ^^^ f.address ^^^ f.data && canonicalBit f.opcode f.data

/-- The opcode the validator expects: the bitwise complement of the sent opcode (R71). -/
def expectedOpcode (sent : Frame) : Byte := sent.opcode ^^^ Config.ackXor

/-- The checksum the validator expects: over the response's own first three bytes (R73). -/
def expectedChecksum (resp : Frame) : Byte := resp.opcode ^^^ resp.address ^^^ resp.data

/-- Stage 1 (R71). -/
def opOk (sent resp : Frame) : Bool := resp.opcode == expectedOpcode sent

/-- Stage 2 (R72): skipped when the SENT address is 0. -/
def addrOk (sent resp : Frame) : Bool := sent.address == Config.skipAddr || resp.address == sent.address

/-- Stage 3 (R73). -/
def csumOk (resp : Frame) : Bool := resp.checksum == expectedChecksum resp

end Sys2Proof.Machine
end

