-- ==== Sys2Proof/Machine/Operands.lean ====
section
/-! DEFINITION. The operand functions of the encoder's front end: OPDEC (R50), MASKGEN (R51), ADDRGEN (R52). -/

namespace Sys2Proof.Machine

/-- `legal` of OPDEC (R50). -/
def opdecLegal (opcode : Byte) : Bool :=
  opcode == Config.opcInit || opcode == Config.opcSet || opcode == Config.opcReset ||
    opcode == Config.opcToggle

/-- `is_init` of OPDEC (R50). -/
def opdecIsInit (opcode : Byte) : Bool := opcode == Config.opcInit

/-- One pass of MASKGEN's loop (R51): the range test comes before the shift. -/
def maskgenStep (acc : Byte × Bool) (n : Byte) : Byte × Bool :=
  if 1 ≤ n.toNat ∧ n.toNat ≤ Config.relays then (acc.1 ||| (1#8 <<< (n.toNat - 1)), acc.2)
  else (acc.1, true)

/-- MASKGEN's loop over the entries in the order of presentation: mask and `bad` (R51). -/
def maskgenFold (sel : List Byte) : Byte × Bool := sel.foldl maskgenStep (0#8, false)

/-- The `bad` output of MASKGEN (R51). -/
def maskgenBad (sel : List Byte) : Bool := (maskgenFold sel).2

/-- The `mask` output of MASKGEN (R51); with a bad entry it has no meaning (free value, log 7). -/
def maskgenMask (sel : List Byte) : Byte :=
  if maskgenBad sel then Config.badMask sel else (maskgenFold sel).1

/-- The effective offset of ADDRGEN, a natural number (R52). -/
def effectiveOffset (offsetPresent : Bool) (cardOffset : Byte) (isInit : Bool) : Nat :=
  if isInit || !offsetPresent then 1 else cardOffset.toNat

/-- ADDRGEN (R52): the sum is exact, `base_address + (off - 1)`, and faults where it leaves 8 bits. -/
def addrgenResult (baseAddress : Byte) (offsetPresent : Bool) (cardOffset : Byte) (isInit : Bool) :
    AddrResult :=
  let off := effectiveOffset offsetPresent cardOffset isInit
  if off = 0 then .raised .invalidCardOffset
  else
    let a := baseAddress.toNat + (off - 1)
    if 255 < a then .raised .addressOverflow else .address (BitVec.ofNat 8 a)

/-- The byte on ADDRGEN's address wire, which feeds the core (R13); when ADDRGEN faults it has no meaning (free
value, log 22). -/
def AddrgenWires.addressOut (w : AddrgenWires) : Byte :=
  match w.result with
  | .address a => a
  | .raised _ => Config.faultedAddress w.baseAddress w.cardOffset

end Sys2Proof.Machine
end

