-- ==== Sys2Proof/Machine/Ops.lean ====
section
/-! DEFINITION. The named operations over the wires: driving one unit (R50 to R54, R70), raising an error and
returning a result (R6 section 6, R97), and the two composed procedures (R55, R70). -/

namespace Sys2Proof.Machine

/-! ### Driving one unit: its inputs and, in the same transaction, its outputs (R2, R27) -/

/-- Drive OPDEC (R50). -/
def State.driveOpdec (opcode : Byte) (s : State) : State :=
  { s with opdec := ⟨opcode, opdecLegal opcode, opdecIsInit opcode⟩ }

/-- Drive MASKGEN (R51). -/
def State.driveMaskgen (sel : List Byte) (s : State) : State :=
  { s with maskgen := ⟨sel, maskgenMask sel, maskgenBad sel⟩ }

/-- Drive ADDRGEN (R52). -/
def State.driveAddrgen (baseAddress : Byte) (offsetPresent : Bool) (cardOffset : Byte) (isInit : Bool)
    (s : State) : State :=
  { s with addrgen := ⟨baseAddress, offsetPresent, cardOffset, isInit,
      addrgenResult baseAddress offsetPresent cardOffset isInit⟩ }

/-- Drive XORSUM (R53). -/
def State.driveXorsum (a b c : Byte) (s : State) : State :=
  { s with xorsum := ⟨a, b, c, a ^^^ b ^^^ c⟩ }

/-- Drive the core FRAME.RAW, whose fourth byte is XORSUM's result (R13, R54). -/
def State.driveCore (opcode address relayMask : Byte) (s : State) : State :=
  let t := s.driveXorsum opcode address relayMask
  { t with core := ⟨opcode, address, relayMask, ⟨opcode, address, relayMask, t.xorsum.sum⟩,
      canonicalBit opcode relayMask⟩ }

/-- Drive the encoder's input ports (R11). -/
def State.driveEncIn (p : EncPorts) (s : State) : State := { s with encIn := p }

/-- Drive the validator's input ports; its three flags are always driven, each from its own bytes (R15, R74). -/
def State.driveValidator (sent resp : Frame) (s : State) : State :=
  { s with
    valIn := ⟨sent, resp⟩
    valOut := { s.valOut with
      opOk := Machine.opOk sent resp, addrOk := Machine.addrOk sent resp, csumOk := Machine.csumOk resp } }

/-! ### Raising an error, and returning a result -/

/-- `raise E(info)` (R97): the unit's status takes the code and the payload outputs take the payload; for the
encoder `frame_valid` is 0 and the frame bytes have no meaning (free value, log 5). Nothing else changes. -/
def State.raise (r : Raised) (s : State) : State :=
  match r with
  | .encoder e => { s with encOut := ⟨e.code, false, Config.invalidFrame s.encIn⟩ }
  | .validator e g x => { s with valOut := { s.valOut with status := e.code, got := g, expected := x } }

/-- `return frame` (R12, R55): status OK, `frame_valid` 1. -/
def State.returnFrame (f : Frame) (s : State) : State := { s with encOut := ⟨0#3, true, f⟩ }

/-- `return OK` of the validator (R70): status OK; `got` and `expected` have no meaning (free values, log 6). -/
def State.returnMatch (s : State) : State :=
  { s with valOut := { s.valOut with
      status := 0#2
      got := Config.idleGot s.valIn.sent s.valIn.resp
      expected := Config.idleExpected s.valIn.sent s.valIn.resp } }

/-! ### The composed procedures -/

/-- Drive the encoder's ports and, in parallel, every unit behind them (R79, R13, R36): OPDEC, MASKGEN and ADDRGEN
from the ports, and the core from them, with `relay_mask` zero for Init. DEDUCED (log 23):
which inputs a unit has in a transaction whose outcome does not use it. -/
def State.driveEncoder (p : EncPorts) (s : State) : State :=
  let t := ((s.driveEncIn p).driveOpdec p.opcode).driveMaskgen p.args.sel
  let u := t.driveAddrgen p.args.baseAddress p.args.offsetPresent p.args.cardOffset t.opdec.isInit
  u.driveCore p.opcode u.addrgen.addressOut (if u.opdec.isInit then 0#8 else u.maskgen.mask)

/-- The five conditions of R55, each read from the wires without regard to the others (R79). -/
def State.encCheckFails (s : State) : EncError → Bool
  | .illegalOpcode => !s.opdec.legal
  | .missingRelaySelector => !s.opdec.isInit && !s.encIn.args.selPresent
  | .invalidRelayNumber => !s.opdec.isInit && s.encIn.args.selPresent && s.maskgen.bad
  | .invalidCardOffset => s.addrgen.result == .raised .invalidCardOffset
  | .addressOverflow => s.addrgen.result == .raised .addressOverflow

/-- The fixed priority of R55 and R96, highest first. -/
def encPriority : List EncError :=
  [.illegalOpcode, .missingRelaySelector, .invalidRelayNumber, .invalidCardOffset, .addressOverflow]

/-- `ENC` (R55): a priority encoder over conditions computed in parallel (R79); the first check that fails raises
its error, and where none does the core's frame is returned. -/
def State.encodeProcedure (p : EncPorts) (s : State) : State :=
  let t := s.driveEncoder p
  match encPriority.find? t.encCheckFails with
  | some e => t.raise (.encoder e)
  | none => t.returnFrame t.core.frame

/-- `VALIDATE` (R70): the error of the first failing stage (R74). -/
def State.validateProcedure (sent resp : Frame) (s : State) : State :=
  let t := s.driveValidator sent resp
  if !t.valOut.opOk then
    t.raise (.validator .unexpectedOpcode resp.opcode (expectedOpcode sent))
  else if !t.valOut.addrOk then
    t.raise (.validator .addressMismatch resp.address sent.address)
  else if !t.valOut.csumOk then
    t.raise (.validator .checksumMismatch resp.checksum (expectedChecksum resp))
  else t.returnMatch

/-! ### The host's pairing of a sent frame with its response (outside the block) -/

/-- The host keeps `frame`, which it has sent, until its response arrives (R40, R108; log 21). -/
def State.hold (frame : Frame) (s : State) : State := { s with host := { s.host with held := frame } }

/-- A response frame arrives: the host presents it to the validator together with the frame it holds (R28 (a),
R35, R108; log 12). The validator's own wires are not read. -/
def State.respond (resp : Frame) (s : State) : State := s.validateProcedure s.host.held resp

end Sys2Proof.Machine
end

