-- ==== Sys2Proof/Machine/Encode.lean ====
section
/-! DEFINITION. The meanings of the encode family: ENC.INIT, ENC.SET, ENC.RESET, ENC.TOGGLE, FRAME.RAW. -/

namespace Sys2Proof.Machine

/-- ENC.INIT (R56): R55 with opcode 1. -/
def execEncInit (o : EncArgs) (s : State) : Host.Outcome State Fault Refusal :=
  .next (s.encodeProcedure ⟨Config.opcInit, o⟩)

/-- ENC.SET (R57): R55 with opcode 6. -/
def execEncSet (o : EncArgs) (s : State) : Host.Outcome State Fault Refusal :=
  .next (s.encodeProcedure ⟨Config.opcSet, o⟩)

/-- ENC.RESET (R58): R55 with opcode 7. -/
def execEncReset (o : EncArgs) (s : State) : Host.Outcome State Fault Refusal :=
  .next (s.encodeProcedure ⟨Config.opcReset, o⟩)

/-- ENC.TOGGLE (R59): R55 with opcode 8. -/
def execEncToggle (o : EncArgs) (s : State) : Host.Outcome State Fault Refusal :=
  .next (s.encodeProcedure ⟨Config.opcToggle, o⟩)

/-- FRAME.RAW (R54): the core on its own, all three bytes supplied by the host (R13). -/
def execFrameRaw (opcode address relayMask : Byte) (s : State) : Host.Outcome State Fault Refusal :=
  .next (s.driveCore opcode address relayMask)

end Sys2Proof.Machine
end

