-- ==== Sys2Proof/Machine/FrontEnd.lean ====
section
/-! DEFINITION. The meanings of the INTERNAL rows: one evaluation of OPDEC, MASKGEN, ADDRGEN or XORSUM by
itself (log 13). -/

namespace Sys2Proof.Machine

/-- OPDEC (R50). -/
def execOpdec (opcode : Byte) (s : State) : Host.Outcome State Fault Refusal :=
  .next (s.driveOpdec opcode)

/-- MASKGEN (R51). -/
def execMaskgen (sel : List Byte) (s : State) : Host.Outcome State Fault Refusal :=
  .next (s.driveMaskgen sel)

/-- ADDRGEN (R52). DESIGN CHOICE (log 14): by itself it leaves its fault in its own result; only the composed
operation reports it on `enc_status`. -/
def execAddrgen (baseAddress : Byte) (offsetPresent : Bool) (cardOffset : Byte) (isInit : Bool) (s : State) :
    Host.Outcome State Fault Refusal :=
  .next (s.driveAddrgen baseAddress offsetPresent cardOffset isInit)

/-- XORSUM (R53). -/
def execXorsum (a b c : Byte) (s : State) : Host.Outcome State Fault Refusal :=
  .next (s.driveXorsum a b c)

end Sys2Proof.Machine
end

