-- ==== Sys2Proof/WellFormed.lean ====
section
/-! DEFINITION. Which operands are legal: the "legal values" column of R11 and the conditions under which R55
raises nothing. `exec` runs ill-formed instructions too (they end with the error of R85). -/

namespace Sys2Proof

/-- A relay number is 1 to 8 (R11, R18). -/
def relayLegal (n : Byte) : Bool := 1 ≤ n.toNat && n.toNat ≤ Config.relays

/-- A card offset that is given is at least 1 (R11, R89). -/
def offsetLegal (offsetPresent : Bool) (cardOffset : Byte) : Bool :=
  !offsetPresent || 1 ≤ cardOffset.toNat

/-- `base_address + card_offset - 1` fits 8 bits (R90). -/
def addressFits (baseAddress : Byte) (offsetPresent : Bool) (cardOffset : Byte) : Bool :=
  !offsetPresent || baseAddress.toNat + (cardOffset.toNat - 1) ≤ 255

/-- The operands with which ENC.SET, ENC.RESET and ENC.TOGGLE raise nothing (R57). -/
def EncArgs.wellFormed (o : EncArgs) : Bool :=
  o.selPresent && o.sel.all relayLegal && offsetLegal o.offsetPresent o.cardOffset &&
    addressFits o.baseAddress o.offsetPresent o.cardOffset

/-- Which instructions have legal operands. ENC.INIT reads only its base address (R56); the core, the
validator, a response, OPDEC and XORSUM accept every value (R54, R70, R4, R50, R53). -/
def Instr.wellFormed : Instr → Bool
  | .encInit _ => true
  | .encSet o => o.wellFormed
  | .encReset o => o.wellFormed
  | .encToggle o => o.wellFormed
  | .frameRaw _ _ _ => true
  | .validate _ _ => true
  | .ackInit _ _ _ => true
  | .ackSet _ _ _ => true
  | .ackReset _ _ _ => true
  | .ackToggle _ _ _ => true
  | .opdec _ => true
  | .maskgen sel => sel.all relayLegal
  | .addrgen b p c i => i || (offsetLegal p c && addressFits b p c)
  | .xorsum _ _ _ => true

end Sys2Proof
end

