-- ==== Sys2Proof/Decode.lean ====
section
/-! DEFINITION. Decoding what a host presents, and after it the encoder, both written from the tables of
30_encoding.md and opcode_table.json. -/

namespace Sys2Proof

/-! ### Frames as bytes and as one word -/

/-- The bytes of a frame in index order, which is the wire order (R21, R23). -/
def Frame.toBytes (f : Frame) : List Byte := [f.opcode, f.address, f.data, f.checksum]

/-- `F[i]` (R21). -/
def Frame.byte (f : Frame) : Fin 4 → Byte
  | 0 => f.opcode
  | 1 => f.address
  | 2 => f.data
  | 3 => f.checksum

/-- `frame32 = {F[3], F[2], F[1], F[0]}` (R22). -/
def Frame.pack (f : Frame) : Word32 := f.checksum ++ f.data ++ f.address ++ f.opcode

/-- Byte `i` of a frame is bits `[8i+7 : 8i]` of `frame32` (R22). -/
def Frame.unpack (w : Word32) : Frame :=
  ⟨w.extractLsb' 0 8, w.extractLsb' 8 8, w.extractLsb' 16 8, w.extractLsb' 24 8⟩

/-- The first `n` bytes of a number, least significant first (R22). -/
def bytesOfNat : Nat → Nat → List Byte
  | 0, _ => []
  | n + 1, w => BitVec.ofNat 8 w :: bytesOfNat n (w / 256)

/-! ### Decoding -/

/-- Why what the host presents is no instruction of the table. -/
inductive DecodeError where
  /-- An opcode byte that no row defines (R37); `ports` is the encode transaction it was presented for. -/
  | undefinedOpcode (ports : EncPorts)
  /-- A word of `n` bytes, where no unit takes a word of that length (R25). -/
  | badLength (n : Nat)
  /-- No transaction: the host holds the frame it sent (R40, R108). -/
  | hostHolds (frame : Frame)
  deriving DecidableEq, Repr

/-- The relays a mask selects, the set `{ n in 1..8 : mask[n-1] = 1 }` (R24, R41). DESIGN CHOICE (log 26): as a
selector it lists each once and in rising order. -/
def relaysOf (mask : Byte) : List Byte :=
  ([1, 2, 3, 4, 5, 6, 7, 8] : List Nat).filterMap fun n =>
    if mask.getLsbD (n - 1) then some (BitVec.ofNat 8 n) else none

/-- DEDUCED (log 10). The operands a command frame stands for: its address as base address with the offset
absent, and the selector listing the set bits of its data byte (R41, R65). DESIGN CHOICE (log 24): the port
`card_offset`, which is not read when the offset is absent (R11), carries 0. -/
def argsOfFrame (f : Frame) : EncArgs :=
  { baseAddress := f.address, offsetPresent := false, cardOffset := 0#8, selPresent := true,
    sel := relaysOf f.data }

/-- A drive of the encoder's ports: the value on `opcode` selects the operation (R14, R31, R37). -/
def decodePorts (p : EncPorts) : Except DecodeError Instr :=
  if p.opcode = Config.opcInit then .ok (.encInit p.args)
  else if p.opcode = Config.opcSet then .ok (.encSet p.args)
  else if p.opcode = Config.opcReset then .ok (.encReset p.args)
  else if p.opcode = Config.opcToggle then .ok (.encToggle p.args)
  else .error (.undefinedOpcode p)

/-- The first byte of the response frame that acknowledges a sent opcode: its complement (R35). -/
def ackOpcode (opcode : Byte) : Byte := opcode ^^^ Config.ackXor

/-- A four-byte word: the low byte selects a CMD_FRAME or an RSP_FRAME row (30_encoding.md section 5). -/
def decodeFrame (f : Frame) : Except DecodeError Instr :=
  if f.opcode = ackOpcode Config.opcInit then .ok (.ackInit f.address f.data f.checksum)
  else if f.opcode = ackOpcode Config.opcSet then .ok (.ackSet f.address f.data f.checksum)
  else if f.opcode = ackOpcode Config.opcReset then .ok (.ackReset f.address f.data f.checksum)
  else if f.opcode = ackOpcode Config.opcToggle then .ok (.ackToggle f.address f.data f.checksum)
  else decodePorts ⟨f.opcode, argsOfFrame f⟩

/-- Any bytes. The formats have no select bits between them; their lengths differ (log 9): 3 bytes are a
CORE_INPUT, 4 a frame, 8 a VALIDATOR_INPUT. -/
def decodeBytes : List Byte → Except DecodeError Instr
  | [o, a, m] => .ok (.frameRaw o a m)
  | [o, a, d, c] => decodeFrame ⟨o, a, d, c⟩
  | [s0, s1, s2, s3, r0, r1, r2, r3] => .ok (.validate ⟨s0, s1, s2, s3⟩ ⟨r0, r1, r2, r3⟩)
  | bs => .error (.badLength bs.length)

/-- What the host asks for. -/
def decodeRequest : Request → Except DecodeError Instr
  | .word bs => decodeBytes bs
  | .encode p => decodePorts p
  | .hold f => .error (.hostHolds f)

/-- The decoder's answer on a word numbered as the opcode table numbers its bits. -/
def decodeTableWord (nbits w : Nat) : Option Instr :=
  match decodeBytes (bytesOfNat ((nbits + 7) / 8) w) with
  | .ok i => some i
  | .error _ => none

/-! ### Encoding -/

/-- The `data` field a selector stands for: bit `n-1` is 1 exactly when relay `n` is listed (R33, R24). DESIGN
CHOICE (log 20): an entry outside 1..8, with which no frame exists (R51, R55), is left out. -/
def maskOf (sel : List Byte) : Byte :=
  BitVec.ofNat 8 ((([1, 2, 3, 4, 5, 6, 7, 8] : List Nat).map fun n =>
    if sel.contains (BitVec.ofNat 8 n) then 2 ^ (n - 1) else 0).sum)

/-- The `address` field of a command frame that applies the card offset (R32). DESIGN CHOICE (log 20): for an
offset of 0 and for a sum above 255, with which no frame exists (R52, D6), this is the sum modulo 256. -/
def addressOf (o : EncArgs) : Byte :=
  if o.offsetPresent then o.baseAddress + (o.cardOffset - 1#8) else o.baseAddress

/-- A frame whose checksum field is the XOR of the three bytes before it (R34). -/
def frameOf (opcode address data : Byte) : Frame :=
  ⟨opcode, address, data, opcode ^^^ address ^^^ data⟩

/-- The word of an instruction in the format of its row (opcode_table.json); the rows of format INTERNAL
have none. A CMD_FRAME row gives the frame pattern its operation produces. DESIGN CHOICE (log 20): ENC.SET,
ENC.RESET and ENC.TOGGLE with operands that R55 raises an error for (not `Instr.wellFormed`) produce no frame;
they get a word here all the same, by `addressOf` and `maskOf` and whatever `selPresent` is. `exec` never
computes it. -/
def encodeBytes : Instr → Option (List Byte)
  | .encInit o => some (frameOf Config.opcInit o.baseAddress 0x00#8).toBytes
  | .encSet o => some (frameOf Config.opcSet (addressOf o) (maskOf o.sel)).toBytes
  | .encReset o => some (frameOf Config.opcReset (addressOf o) (maskOf o.sel)).toBytes
  | .encToggle o => some (frameOf Config.opcToggle (addressOf o) (maskOf o.sel)).toBytes
  | .frameRaw o a m => some [o, a, m]
  | .validate sent resp => some (sent.toBytes ++ resp.toBytes)
  | .ackInit a d c => some [ackOpcode Config.opcInit, a, d, c]
  | .ackSet a d c => some [ackOpcode Config.opcSet, a, d, c]
  | .ackReset a d c => some [ackOpcode Config.opcReset, a, d, c]
  | .ackToggle a d c => some [ackOpcode Config.opcToggle, a, d, c]
  | .opdec _ => none
  | .maskgen _ => none
  | .addrgen _ _ _ _ => none
  | .xorsum _ _ _ => none

/-- The drive of the encoder's ports that asks for an encode operation (R11, R31). -/
def encodePorts : Instr → Option EncPorts
  | .encInit o => some ⟨Config.opcInit, o⟩
  | .encSet o => some ⟨Config.opcSet, o⟩
  | .encReset o => some ⟨Config.opcReset, o⟩
  | .encToggle o => some ⟨Config.opcToggle, o⟩
  | .frameRaw _ _ _ => none
  | .validate _ _ => none
  | .ackInit _ _ _ => none
  | .ackSet _ _ _ => none
  | .ackReset _ _ _ => none
  | .ackToggle _ _ _ => none
  | .opdec _ => none
  | .maskgen _ => none
  | .addrgen _ _ _ _ => none
  | .xorsum _ _ _ => none

/-- What is left of an encode operation's operands in its frame: base and offset only as their combination,
the selector without order and repetition (R41). DESIGN CHOICE (log 20): for operands that raise an error, what
the word of `encodeBytes` decodes to, a transaction that raises none. DESIGN CHOICE (log 24): `card_offset` is 0
where the offset is absent. -/
def EncArgs.frameForm (o : EncArgs) : EncArgs :=
  { baseAddress := addressOf o, offsetPresent := false, cardOffset := 0#8, selPresent := true,
    sel := relaysOf (maskOf o.sel) }

/-- The instruction that the word of an instruction stands for (R41); an instruction that is not an encode
operation is its own. DESIGN CHOICE (log 24): `card_offset` is 0 where the offset is absent. -/
def Instr.frameForm : Instr → Instr
  | .encInit o => .encInit ⟨o.baseAddress, false, 0#8, true, []⟩
  | .encSet o => .encSet o.frameForm
  | .encReset o => .encReset o.frameForm
  | .encToggle o => .encToggle o.frameForm
  | .frameRaw o a m => .frameRaw o a m
  | .validate sent resp => .validate sent resp
  | .ackInit a d c => .ackInit a d c
  | .ackSet a d c => .ackSet a d c
  | .ackReset a d c => .ackReset a d c
  | .ackToggle a d c => .ackToggle a d c
  | .opdec o => .opdec o
  | .maskgen sel => .maskgen sel
  | .addrgen b p c i => .addrgen b p c i
  | .xorsum a b c => .xorsum a b c

end Sys2Proof
end

