-- ==== Sys2Proof/Machine/Validate.lean ====
section
/-! DEFINITION. The meanings of VALIDATE (R70) and of the four response frame classes (R35). -/

namespace Sys2Proof.Machine

/-- VALIDATE (R70). -/
def execValidate (sent resp : Frame) (s : State) : Host.Outcome State Fault Refusal :=
  .next (s.validateProcedure sent resp)

/-- DESIGN CHOICE (log 12). ACK.INIT: a response frame with first byte `~1` at the port `resp` (R35). -/
def execAckInit (a d c : Byte) (s : State) : Host.Outcome State Fault Refusal :=
  .next (s.respond ⟨ackOpcode Config.opcInit, a, d, c⟩)

/-- DESIGN CHOICE (log 12). ACK.SET: a response frame with first byte `~6` at the port `resp` (R35). -/
def execAckSet (a d c : Byte) (s : State) : Host.Outcome State Fault Refusal :=
  .next (s.respond ⟨ackOpcode Config.opcSet, a, d, c⟩)

/-- DESIGN CHOICE (log 12). ACK.RESET: a response frame with first byte `~7` at the port `resp` (R35). -/
def execAckReset (a d c : Byte) (s : State) : Host.Outcome State Fault Refusal :=
  .next (s.respond ⟨ackOpcode Config.opcReset, a, d, c⟩)

/-- DESIGN CHOICE (log 12). ACK.TOGGLE: a response frame with first byte `~8` at the port `resp` (R35). -/
def execAckToggle (a d c : Byte) (s : State) : Host.Outcome State Fault Refusal :=
  .next (s.respond ⟨ackOpcode Config.opcToggle, a, d, c⟩)

end Sys2Proof.Machine
end

