-- ==== Sys2Proof/Machine/Dispatch.lean ====
section
/-! DEFINITION. One arm for each constructor of Instr. -/

namespace Sys2Proof.Machine

def exec (i : Instr) (s : State) : Host.Outcome State Fault Refusal :=
  match i with
  | .encInit o => Sys2Proof.Machine.execEncInit o s
  | .encSet o => Sys2Proof.Machine.execEncSet o s
  | .encReset o => Sys2Proof.Machine.execEncReset o s
  | .encToggle o => Sys2Proof.Machine.execEncToggle o s
  | .frameRaw o a m => Sys2Proof.Machine.execFrameRaw o a m s
  | .validate sent resp => Sys2Proof.Machine.execValidate sent resp s
  | .ackInit a d c => Sys2Proof.Machine.execAckInit a d c s
  | .ackSet a d c => Sys2Proof.Machine.execAckSet a d c s
  | .ackReset a d c => Sys2Proof.Machine.execAckReset a d c s
  | .ackToggle a d c => Sys2Proof.Machine.execAckToggle a d c s
  | .opdec o => Sys2Proof.Machine.execOpdec o s
  | .maskgen sel => Sys2Proof.Machine.execMaskgen sel s
  | .addrgen b p c n => Sys2Proof.Machine.execAddrgen b p c n s
  | .xorsum a b c => Sys2Proof.Machine.execXorsum a b c s

end Sys2Proof.Machine
end

