-- ==== Sys2Proof/Machine/Fetch.lean ====
section
/-! DEFINITION. The host's side of a transaction: which request it presents next, and what a request that
decodes to no instruction does. -/

namespace Sys2Proof.Machine

/-- The request the host presents in this transaction, and the state with it taken off the host's list
(R14; log 2). -/
def State.fetch (s : State) : Option (Request × State) :=
  match s.host.pending with
  | [] => none
  | r :: rest => some (r, { s with host := { s.host with pending := rest } })

/-- A request that is no instruction. An undefined opcode on the port runs R55, which raises IllegalOpcode
(R37, R88; log 11); a word no unit can take is refused (R25; log 9); a frame the host holds changes the host
only (R19; log 21). -/
def onDecodeError (e : DecodeError) (s : State) : Host.Outcome State Fault Refusal :=
  match e with
  | .undefinedOpcode p => .next (s.encodeProcedure p)
  | .badLength n => .refused (.unpresentableWord n)
  | .hostHolds f => .next (s.hold f)

/-- The host's list with the word `bytes` as what it presents next, in place of what it was to present. -/
def State.presentWord (bytes : List Byte) (s : State) : State :=
  { s with host := { s.host with pending := .word bytes :: s.host.pending.tail } }

end Sys2Proof.Machine
end

