-- ==== Sys2Proof/Machine/Step.lean ====
section
/-! DEFINITION. One step: one transaction (R2), or the host holding the frame it sent (log 21). -/

namespace Sys2Proof.Machine

/-- What the host does next. With nothing presented, nothing happens (DESIGN CHOICE, log 3). -/
def step (s : State) : Host.Outcome State Fault Refusal :=
  match s.fetch with
  | none => .next s
  | some (r, t) =>
    match decodeRequest r with
    | .ok i => exec i t
    | .error e => onDecodeError e t

/-- `s` with the instruction whose bits are `w` as what the host presents next (log 2). -/
def State.withFetchWord (s : State) (nbits w : Nat) : State :=
  s.presentWord (bytesOfNat ((nbits + 7) / 8) w)

end Sys2Proof.Machine
end

