-- ==== Sys2Proof/Machine/Session.lean ====
section
/-! DEFINITION. The Device Session's pseudo-operations (R40): how the host drives the block. They are outside the
block and no step runs them (log 17). -/

namespace Sys2Proof.Machine

/-- Why a session operation ended early (R40, R92, R98). -/
inductive SessionError where
  /-- An encode error, with `enc_status`. -/
  | encode (status : BitVec 3)
  /-- A validation error, with `val_status` and its payload. -/
  | validate (status : BitVec 2) (got expected : Byte)
  /-- TransportError (R92): the read gave no response frame. -/
  | transport
  deriving DecidableEq, Repr

/-- What a session operation leaves: the state of the block, the frames written to the transport, and the error
that ended it. -/
structure SessionResult where
  state   : State
  written : List Frame
  error   : Option SessionError
  deriving DecidableEq, Repr

/-- The opcode of a command (R31). -/
def commandByte : Command → Byte
  | .init => Config.opcInit
  | .set => Config.opcSet
  | .reset => Config.opcReset
  | .toggle => Config.opcToggle

/-- The ports of one card's command in a batch (R40): base address `base`, card offset `card`, selector
`relays`. -/
def cardPorts (c : Command) (base : Byte) (relays : List Byte) (card : Byte) : EncPorts :=
  ⟨commandByte c, ⟨base, true, card, true, relays⟩⟩

/-- What one card's command and its answer do: encode, write, hold the frame sent, read four bytes, validate
(R40, R108). No answer means that the read failed, so that no VALIDATE takes place (R92). DESIGN CHOICE (log 25): the
frame is held from the write on, and still after a failed read. -/
def sessionCard (p : EncPorts) (answer : Option Frame) (s : State) : SessionResult :=
  let t := s.encodeProcedure p
  if !t.encOut.frameValid then ⟨t, [], some (.encode t.encOut.status)⟩
  else
    let sent := t.hold t.encOut.frame
    match answer with
    | none => ⟨sent, [t.encOut.frame], some .transport⟩
    | some r =>
      let u := sent.respond r
      if u.valOut.status = 0#2 then ⟨u, [t.encOut.frame], none⟩
      else ⟨u, [t.encOut.frame], some (.validate u.valOut.status u.valOut.got u.valOut.expected)⟩

/-- The batch over the cards in the order given; the first error stops it and leaves the remaining cards
untouched (R40: fail-fast). -/
def sessionCards (c : Command) (base : Byte) (relays : List Byte) :
    List Byte → List (Option Frame) → State → SessionResult
  | [], _, s => ⟨s, [], none⟩
  | card :: cards, answers, s =>
    let first := sessionCard (cardPorts c base relays card) (answers.headD none) s
    match first.error with
    | some e => ⟨first.state, first.written, some e⟩
    | none =>
      let rest := sessionCards c base relays cards answers.tail first.state
      ⟨rest.state, first.written ++ rest.written, rest.error⟩

/-- `set`, `reset` and `toggle` of R40; no card named means the card at offset 1. -/
def sessionBatch (c : Command) (base : Byte) (cards relays : List Byte) (answers : List (Option Frame))
    (s : State) : SessionResult :=
  sessionCards c base relays (if cards.isEmpty then [1#8] else cards) answers s

/-- Read bytes until one equal to the sentinel 9 has been read, or `bound` bytes have: whether it was seen, and
the bytes left unread (R40, R114, U16; log 17). -/
def readToSentinel : Nat → List Byte → Bool × List Byte
  | 0, bs => (false, bs)
  | _ + 1, [] => (false, [])
  | n + 1, b :: bs => if b = Config.sentinel then (true, bs) else readToSentinel n bs

/-- `init()` of R40: encode and write the Init frame and read to the sentinel or the bound; no VALIDATE. DESIGN
CHOICE: the ports of the absent offset and selector carry 0 and no entries (log 24); the host holds the frame it
wrote (log 25). -/
def sessionInit (base : Byte) (bound : Nat) (inbound : List Byte) (s : State) :
    SessionResult × Bool × List Byte :=
  let t := s.encodeProcedure ⟨Config.opcInit, ⟨base, false, 0#8, false, []⟩⟩
  (⟨t.hold t.encOut.frame, [t.encOut.frame], none⟩, readToSentinel bound inbound)

end Sys2Proof.Machine
end

