-- ==== Sys2Proof/Safety.lean ====
section
/-! DEFINITION. The terms statements use: which error of R86 to R90 applies to the inputs of an encode
transaction, what its outputs must then be, the consistency of every output with its inputs, and what the host
may do with the outputs. Written from the rules' sentences, not from the operations of Machine/Ops.lean. -/

namespace Sys2Proof.Machine

/-- The opcode port carries one of the four commands (R31, R37). -/
def commandOpcode (opcode : Byte) : Prop :=
  opcode = 1#8 ∨ opcode = 6#8 ∨ opcode = 7#8 ∨ opcode = 8#8

/-- The opcode port carries Set, Reset or Toggle: the commands with a relay mask (R31). -/
def maskOpcode (opcode : Byte) : Prop := opcode = 6#8 ∨ opcode = 7#8 ∨ opcode = 8#8

/-- When each error applies to the inputs of an encode transaction (R86 to R90), whatever else does. -/
def EncError.applies (e : EncError) (p : EncPorts) : Prop :=
  match e with
  | .illegalOpcode => ¬ commandOpcode p.opcode
  | .missingRelaySelector => maskOpcode p.opcode ∧ p.args.selPresent = false
  | .invalidRelayNumber =>
    maskOpcode p.opcode ∧ p.args.selPresent = true ∧ ∃ n ∈ p.args.sel, n.toNat = 0 ∨ 9 ≤ n.toNat
  | .invalidCardOffset => maskOpcode p.opcode ∧ p.args.offsetPresent = true ∧ p.args.cardOffset = 0#8
  | .addressOverflow =>
    maskOpcode p.opcode ∧ p.args.offsetPresent = true ∧
      255 < p.args.baseAddress.toNat + p.args.cardOffset.toNat - 1

/-- The place of an error in the priority of encode errors (R55, R96). -/
def EncError.priority : EncError → Nat
  | .illegalOpcode => 1
  | .missingRelaySelector => 2
  | .invalidRelayNumber => 3
  | .invalidCardOffset => 4
  | .addressOverflow => 5

/-- `e` is the error an encode transaction reports: it applies, and none of a higher priority does (R96). -/
def EncError.reported (e : EncError) (p : EncPorts) : Prop :=
  e.applies p ∧ ∀ f : EncError, f.priority < e.priority → ¬ f.applies p

/-- The address a command frame carries, as a natural number (R32): the base, and for a command that applies
the card offset, what the offset adds. -/
def frameAddress (p : EncPorts) : Nat :=
  if p.opcode = 1#8 ∨ p.args.offsetPresent = false then p.args.baseAddress.toNat
  else p.args.baseAddress.toNat + p.args.cardOffset.toNat - 1

/-- Bit `k` of a frame's data byte is relay `k+1` of the selector; Init selects none (R33, R24). -/
def dataSelects (p : EncPorts) (d : Byte) : Prop :=
  ∀ k : Nat, k < 8 → (d.getLsbD k = true ↔ p.opcode ≠ 1#8 ∧ BitVec.ofNat 8 (k + 1) ∈ p.args.sel)

/-- `f` is the command frame that the inputs `p` ask for (R31 to R34). -/
def commandFrame (p : EncPorts) (f : Frame) : Prop :=
  f.opcode = p.opcode ∧ f.address.toNat = frameAddress p ∧ dataSelects p f.data ∧
    f.checksum = f.opcode ^^^ f.address ^^^ f.data

/-- What the encoder's outputs are for its inputs (R12, R55, R97): the code of the error reported and no valid
frame, or OK and the command frame. -/
def encoderAnswers (p : EncPorts) (o : EncOut) : Prop :=
  (∃ e : EncError, e.reported p ∧ o.status = e.code ∧ o.frameValid = false) ∨
    ((∀ e : EncError, ¬ e.applies p) ∧ o.status = 0#3 ∧ o.frameValid = true ∧ commandFrame p o.frame)

/-- What the validator's outputs are for its inputs: the table of R74. `got` and `expected` are constrained only
where a stage failed. -/
def validatorAnswers (v : ValIn) (o : ValOut) : Prop :=
  (o.opOk = true ↔ v.resp.opcode = ~~~ v.sent.opcode) ∧
  (o.addrOk = true ↔ v.sent.address = 0#8 ∨ v.resp.address = v.sent.address) ∧
  (o.csumOk = true ↔ v.resp.checksum = v.resp.opcode ^^^ v.resp.address ^^^ v.resp.data) ∧
  (o.opOk = false → o.status = 1#2 ∧ o.got = v.resp.opcode ∧ o.expected = ~~~ v.sent.opcode) ∧
  (o.opOk = true → o.addrOk = false →
    o.status = 2#2 ∧ o.got = v.resp.address ∧ o.expected = v.sent.address) ∧
  (o.opOk = true → o.addrOk = true → o.csumOk = false →
    o.status = 3#2 ∧ o.got = v.resp.checksum ∧
      o.expected = v.resp.opcode ^^^ v.resp.address ^^^ v.resp.data) ∧
  (o.opOk = true → o.addrOk = true → o.csumOk = true → o.status = 0#2)

/-- The core's outputs for its inputs (R54). -/
def coreAnswers (c : CoreWires) : Prop :=
  c.frame = ⟨c.opcode, c.address, c.relayMask, c.opcode ^^^ c.address ^^^ c.relayMask⟩ ∧
  (c.canonical = true ↔ maskOpcode c.opcode ∨ (c.opcode = 1#8 ∧ c.relayMask = 0#8))

/-- OPDEC's outputs for its input (R50). -/
def opdecAnswers (w : OpdecWires) : Prop :=
  (w.legal = true ↔ commandOpcode w.opcode) ∧ (w.isInit = true ↔ w.opcode = 1#8)

/-- MASKGEN's outputs for its input (R51); the mask is constrained only where `bad` is 0. -/
def maskgenAnswers (w : MaskgenWires) : Prop :=
  (w.bad = true ↔ ∃ n ∈ w.sel, n.toNat = 0 ∨ 9 ≤ n.toNat) ∧
  (w.bad = false → ∀ k : Nat, k < 8 → (w.mask.getLsbD k = true ↔ BitVec.ofNat 8 (k + 1) ∈ w.sel))

/-- ADDRGEN's result for its inputs (R52). -/
def addrgenAnswers (w : AddrgenWires) : Prop :=
  (w.isInit = true ∨ w.offsetPresent = false → w.result = .address w.baseAddress) ∧
  (w.isInit = false → w.offsetPresent = true → w.cardOffset = 0#8 → w.result = .raised .invalidCardOffset) ∧
  (w.isInit = false → w.offsetPresent = true → w.cardOffset ≠ 0#8 →
    255 < w.baseAddress.toNat + w.cardOffset.toNat - 1 → w.result = .raised .addressOverflow) ∧
  (w.isInit = false → w.offsetPresent = true → w.cardOffset ≠ 0#8 →
    w.baseAddress.toNat + w.cardOffset.toNat - 1 ≤ 255 →
      ∃ a : Byte, w.result = .address a ∧ a.toNat = w.baseAddress.toNat + w.cardOffset.toNat - 1)

/-- XORSUM's result for its inputs (R53). -/
def xorsumAnswers (w : XorsumWires) : Prop :=
  ∀ i : Nat, i < 8 → w.sum.getLsbD i = (w.a.getLsbD i ^^ w.b.getLsbD i ^^ w.c.getLsbD i)

/-- Every output is what its rule gives for the inputs beside it: the block is combinational (R2, R105). -/
def State.consistent (s : State) : Prop :=
  encoderAnswers s.encIn s.encOut ∧ coreAnswers s.core ∧ validatorAnswers s.valIn s.valOut ∧
    opdecAnswers s.opdec ∧ maskgenAnswers s.maskgen ∧ addrgenAnswers s.addrgen ∧ xorsumAnswers s.xorsum

/-- Every unit of the encoder shows the inputs that the ports `p` give it (R13, R36), all of them at once (R79):
OPDEC, MASKGEN and ADDRGEN those of the ports, the core what these three give, XORSUM what the core has. -/
def State.encoderDrivenBy (s : State) (p : EncPorts) : Prop :=
  s.encIn = p ∧ s.opdec.opcode = p.opcode ∧ s.maskgen.sel = p.args.sel ∧
  s.addrgen.baseAddress = p.args.baseAddress ∧ s.addrgen.offsetPresent = p.args.offsetPresent ∧
  s.addrgen.cardOffset = p.args.cardOffset ∧ s.addrgen.isInit = s.opdec.isInit ∧
  s.core.opcode = p.opcode ∧ (∀ a : Byte, s.addrgen.result = .address a → s.core.address = a) ∧
  s.core.relayMask = (if s.opdec.isInit then 0#8 else s.maskgen.mask) ∧
  s.xorsum.a = s.core.opcode ∧ s.xorsum.b = s.core.address ∧ s.xorsum.c = s.core.relayMask ∧
  s.core.frame.checksum = s.xorsum.sum

/-- From the start `s`, `s'` to the ends `t`, `t'`, what `wire` reads was left alone, or is the same in both ends. -/
def State.keptOrSame {α : Type} (wire : State → α) (s s' t t' : State) : Prop :=
  (wire t = wire s ∧ wire t' = wire s') ∨ wire t = wire t'

/-- The host may send the encoder's frame (R113). -/
def State.maySendFrame (s : State) : Prop := s.encOut.frameValid = true

/-- The host may send the core's frame (R54, R113). -/
def State.maySendRaw (s : State) : Prop := s.core.canonical = true

/-- The host's premise of R28 (a) and R108: the frame it holds is the frame the encoder answered. -/
def State.paired (s : State) : Prop := s.encOut.frameValid = true ∧ s.host.held = s.encOut.frame

/-- The rows whose unit is the validator (R15, R35, R70). -/
def validatorSide : Instr → Bool
  | .encInit _ => false
  | .encSet _ => false
  | .encReset _ => false
  | .encToggle _ => false
  | .frameRaw _ _ _ => false
  | .validate _ _ => true
  | .ackInit _ _ _ => true
  | .ackSet _ _ _ => true
  | .ackReset _ _ _ => true
  | .ackToggle _ _ _ => true
  | .opdec _ => false
  | .maskgen _ => false
  | .addrgen _ _ _ _ => false
  | .xorsum _ _ _ => false

/-- The rows of format INTERNAL, which have no encoding (opcode_table.json). -/
def internalRow : Instr → Bool
  | .encInit _ => false
  | .encSet _ => false
  | .encReset _ => false
  | .encToggle _ => false
  | .frameRaw _ _ _ => false
  | .validate _ _ => false
  | .ackInit _ _ _ => false
  | .ackSet _ _ _ => false
  | .ackReset _ _ _ => false
  | .ackToggle _ _ _ => false
  | .opdec _ => true
  | .maskgen _ => true
  | .addrgen _ _ _ _ => true
  | .xorsum _ _ _ => true

end Sys2Proof.Machine
end

