-- ==== Sys2Proof/Certificates/Slice0/Obligations.lean ====
section
/-! DEFINITION. The statements put to the provers. -/

open Sys2Proof Sys2Proof.Machine

/-! ### The step, decoding and reset -/

/-- 10_state.md section 4: the host decides per transaction which operation runs; a request that decodes to `i`
runs `i`, and the step takes the request off the host's list (log 2). -/
def Obligations.StepRunsTheDecodedTransaction : Prop :=
  ∀ (s : State) (r : Request) (rest : List Request) (i : Instr),
    s.host.pending = r :: rest → decodeRequest r = .ok i →
      step s = exec i { s with host := ⟨rest, s.host.held⟩ }

/-- 60_exceptions.md sections 1 and 4, R88 and R97: an opcode no command has ends with IllegalOpcode, and has no
effect outside the encoder. The model's choices are in it: that the byte of such a word reaches the opcode port
(log 11), which inputs the encoder's internal units show (log 23, DEDUCED), that other ports keep their values (log 1). -/
def Obligations.StepOnAnUndefinedOpcodeReportsIllegalOpcode : Prop :=
  ∀ (s : State) (r : Request) (rest : List Request) (p : EncPorts),
    s.host.pending = r :: rest → decodeRequest r = .error (.undefinedOpcode p) →
      ∃ t : State, step s = .next t ∧ t.encOut.status = 3#3 ∧ t.encOut.frameValid = false ∧
        t.opdec = ⟨p.opcode, false, false⟩ ∧ t.encoderDrivenBy p ∧
        t.host = ⟨rest, s.host.held⟩ ∧ t.valIn = s.valIn ∧ t.valOut = s.valOut

/-- The model's choice (log 9): a word of a length that no unit takes is refused by name. 20_memory.md section 3
says that such a frame cannot be presented. -/
def Obligations.StepRefusesAWordNoUnitTakes : Prop :=
  ∀ (s : State) (bs : List Byte) (rest : List Request),
    s.host.pending = .word bs :: rest → bs.length ≠ 3 → bs.length ≠ 4 → bs.length ≠ 8 →
      step s = .refused (.unpresentableWord bs.length)

/-- The model's choice (log 3): with nothing presented, a step changes nothing. -/
def Obligations.StepWithNothingPresentedChangesNothing : Prop :=
  ∀ s : State, s.host.pending = [] → step s = .next s

/-- Words written out from opcode_table.json and 95_test_vectors.md decode to the instructions they stand for. The
operands of the four ENC rows (offset absent, selector from the data bits) are DEDUCED from R41 and R65 (log 10),
the 0 of their unread card offset is the model's choice (log 24), and so is the order of the relays (log 26);
that 24 and 64 bits select the other two units is the model's choice (log 9), and so is the last line (log 11). -/
def Obligations.WordsOfTheTableDecode : Prop :=
  decodeTableWord 32 0x00000101 = some (.encInit ⟨1#8, false, 0#8, true, []⟩) ∧
  decodeTableWord 32 0x02050106 = some (.encSet ⟨1#8, false, 0#8, true, [1#8, 3#8]⟩) ∧
  decodeTableWord 32 0xA1AA0C07 = some (.encReset ⟨12#8, false, 0#8, true, [2#8, 4#8, 6#8, 8#8]⟩) ∧
  decodeTableWord 32 0xE710FF08 = some (.encToggle ⟨255#8, false, 0#8, true, [5#8]⟩) ∧
  decodeTableWord 24 0x563412 = some (.frameRaw 0x12#8 0x34#8 0x56#8) ∧
  decodeTableWord 64 0xF40B01FE00000101 =
    some (.validate ⟨1#8, 1#8, 0#8, 0#8⟩ ⟨254#8, 1#8, 11#8, 244#8⟩) ∧
  decodeTableWord 32 0xF40B01FE = some (.ackInit 1#8 11#8 244#8) ∧
  decodeTableWord 32 0xFD0501F9 = some (.ackSet 1#8 5#8 253#8) ∧
  decodeTableWord 32 0xF90001F8 = some (.ackReset 1#8 0#8 249#8) ∧
  decodeTableWord 32 0x0FFF07F7 = some (.ackToggle 7#8 255#8 15#8) ∧
  decodeTableWord 32 0x00000009 = none

/-- 30_encoding.md section 5: rows of format INTERNAL have no encoding; nothing a host presents decodes to one. -/
def Obligations.NothingPresentedDecodesToAnInternalFunction : Prop :=
  ∀ (r : Request) (i : Instr), decodeRequest r = .ok i → internalRow i = false

/-- Decode and encode agree. The word of an instruction decodes to what is left of it in the word (R41's law:
base and offset only combined, no order or repetition of the selector), taking that twice is taking it once, and
every word the decoder accepts, if it is no command frame or a canonical one, is the word of what it decodes to.
Which operands a frame stands for is DEDUCED (log 10). The model's choices are: the unread card offset at 0 (log 24),
the relays once and in rising order (log 26), a word for operands that raise an error, which have no frame (log 20). -/
def Obligations.WordsOfInstructionsRoundTrip : Prop :=
  (∀ (i : Instr) (bs : List Byte), encodeBytes i = some bs → decodeBytes bs = .ok i.frameForm) ∧
  (∀ i : Instr, i.frameForm.frameForm = i.frameForm) ∧
  (∀ (bs : List Byte) (i : Instr), decodeBytes bs = .ok i →
    (∀ p : EncPorts, encodePorts i = some p →
      ∃ f : Frame, bs = f.toBytes ∧ frameCanonical f = true) →
    encodeBytes i = some bs)

/-- The drive of the encoder's ports carries every operand: decoding it gives the instruction back, with every
value of every port (R11, R31), and no two instructions share a drive. -/
def Obligations.PortsOfEncodeOperationsRoundTrip : Prop :=
  (∀ (i : Instr) (p : EncPorts), encodePorts i = some p → decodePorts p = .ok i) ∧
  (∀ (p : EncPorts) (i : Instr), decodePorts p = .ok i → encodePorts i = some p) ∧
  (∀ p : EncPorts, decodePorts p = .error (.undefinedOpcode p) ↔ ¬ commandOpcode p.opcode)

/-- R22: byte `i` of a frame occupies bits `[8i+7 : 8i]` of its 32-bit form, and the decoder reads the table's
32-bit words so. -/
def Obligations.PackedFrameHoldsByteIAtBits8I : Prop :=
  (∀ (f : Frame) (i : Fin 4), f.pack.extractLsb' (8 * i.val) 8 = f.byte i) ∧
  (∀ w : Word32, (Frame.unpack w).pack = w) ∧
  (∀ w : Word32, decodeTableWord 32 w.toNat = (decodeFrame (Frame.unpack w)).toOption)

/-- 70_reset_and_hazards.md section 1: there is no idle value; after reset every output is what its rule gives for
the inputs then present. The inputs are the model's choice (log 4), and nothing is said of the frame bytes. -/
def Obligations.ResetIsConsistent : Prop :=
  State.reset.consistent ∧ State.reset.host.pending = []

/-- Every step from any state in which each output is what its rule gives for its inputs leaves such a state. -/
def Obligations.StepKeepsEveryOutputAFunctionOfItsInputs : Prop :=
  ∀ s t : State, s.consistent → step s = .next t → t.consistent

/-- The model's choice (logs 12 and 21), with 10_state.md section 9 and 70_reset_and_hazards.md section 3: when the
host holds the frame it sent, the block is untouched (log 21); and a response word that comes next, of any of the four
classes, is judged as VALIDATE judges it against that frame and no other (log 12). That the second step leaves every
port and wire but the validator's with the value it had is the model's choice too (log 1). -/
def Obligations.AResponseIsJudgedAgainstTheFrameTheHostHolds : Prop :=
  ∀ (s : State) (sent : Frame) (o a d c : Byte) (rest : List Request),
    s.host.pending = .hold sent :: .word [o, a, d, c] :: rest → commandOpcode (~~~ o) →
      ∃ out : ValOut,
        step s = .next { s with host := ⟨.word [o, a, d, c] :: rest, sent⟩ } ∧
        step { s with host := ⟨.word [o, a, d, c] :: rest, sent⟩ } = .next { s with
          host := ⟨rest, sent⟩, valIn := ⟨sent, ⟨o, a, d, c⟩⟩, valOut := out } ∧
        validatorAnswers ⟨sent, ⟨o, a, d, c⟩⟩ out

/-! ### The encode family -/

/-- R56: whatever the offset and selector ports carry, ENC.INIT answers OK with `[1, base, 0, 1 ^ base]`. -/
def Obligations.EncInitAlwaysAnswersItsFrame : Prop :=
  ∀ (o : EncArgs) (s : State), ∃ t : State, exec (.encInit o) s = .next t ∧ t.encIn = ⟨1#8, o⟩ ∧
    t.encOut = ⟨0#3, true, ⟨1#8, o.baseAddress, 0#8, 1#8 ^^^ o.baseAddress⟩⟩

/-- 40_encode.md sections 8 to 10: with legal operands ENC.SET, ENC.RESET and ENC.TOGGLE answer OK with the frame
`[opcode, base + offset - 1, mask, XOR]`. -/
def Obligations.SetResetToggleAnswerTheirFrame : Prop :=
  ∀ (o : EncArgs) (s : State), o.wellFormed = true →
    (∃ t, exec (.encSet o) s = .next t ∧ t.encOut.status = 0#3 ∧ t.encOut.frameValid = true ∧
      commandFrame ⟨6#8, o⟩ t.encOut.frame) ∧
    (∃ t, exec (.encReset o) s = .next t ∧ t.encOut.status = 0#3 ∧ t.encOut.frameValid = true ∧
      commandFrame ⟨7#8, o⟩ t.encOut.frame) ∧
    (∃ t, exec (.encToggle o) s = .next t ∧ t.encOut.status = 0#3 ∧ t.encOut.frameValid = true ∧
      commandFrame ⟨8#8, o⟩ t.encOut.frame)

/-- R55: every drive of the encoder's ports, with any value on any port, is answered in the same step: with the
error of the first check that fails and no valid frame, or with OK and the command frame, which the core then
shows with `canonical = 1`. -/
def Obligations.EncodeReportsTheFirstFailingCheck : Prop :=
  ∀ (s : State) (p : EncPorts) (rest : List Request), s.host.pending = .encode p :: rest →
    ∃ t : State, step s = .next t ∧ t.encIn = p ∧ encoderAnswers p t.encOut ∧
      (t.encOut.frameValid = true → t.core.frame = t.encOut.frame ∧ t.core.canonical = true)

/-- R12 and R85: after an encode operation `frame_valid` is 1 exactly when `enc_status` is OK, and codes 6 and 7
are never driven. -/
def Obligations.FrameValidExactlyWhenStatusIsOk : Prop :=
  ∀ (i : Instr) (p : EncPorts) (s t : State), encodePorts i = some p → exec i s = .next t →
    (t.encOut.frameValid = true ↔ t.encOut.status = 0#3) ∧ t.encOut.status.toNat ≤ 5

/-- 60_exceptions.md section 4 (nothing else happens): an encode transaction, on the ports or as an instruction,
changes neither the host's data nor the validator's ports, whatever it answers. That ports not driven keep their
values is the model's choice (log 1). -/
def Obligations.EncodeLeavesEverythingElseUnchanged : Prop :=
  (∀ (i : Instr) (p : EncPorts) (s t : State), encodePorts i = some p → exec i s = .next t →
    t.host = s.host ∧ t.valIn = s.valIn ∧ t.valOut = s.valOut) ∧
  (∀ (p : EncPorts) (s : State) (rest : List Request), s.host.pending = .encode p :: rest →
    ∃ t : State, step s = .next t ∧ t.host = ⟨rest, s.host.held⟩ ∧ t.valIn = s.valIn ∧ t.valOut = s.valOut)

/-- 10_state.md section 2 (R13), 41_validate.md section 6 (R79), and log 23: in every encode transaction all units of
the encoder show the inputs that the ports give them, whatever fails. With a frame `f` returned, OPDEC shows the
opcode, ADDRGEN the address of `f`, MASKGEN (unless Init) the data of `f`, XORSUM its checksum, the core all of it. -/
def Obligations.EncodeIsTheCompositionOfItsUnits : Prop :=
  ∀ (i : Instr) (p : EncPorts) (s t : State), encodePorts i = some p → exec i s = .next t →
    t.encoderDrivenBy p ∧
    (t.encOut.frameValid = true →
      t.opdec = ⟨p.opcode, true, decide (p.opcode = 1#8)⟩ ∧
      t.addrgen.result = .address t.encOut.frame.address ∧
      (p.opcode ≠ 1#8 → t.maskgen = ⟨p.args.sel, t.encOut.frame.data, false⟩) ∧
      (p.opcode = 1#8 → t.encOut.frame.data = 0#8) ∧
      t.xorsum.sum = t.encOut.frame.checksum ∧
      t.core = ⟨p.opcode, t.encOut.frame.address, t.encOut.frame.data, t.encOut.frame, true⟩)

/-- R60: the fourth byte of every frame the encoder returns is the XOR of the first three, and FRAME.RAW's is for
all 2^24 inputs. -/
def Obligations.FourthByteIsTheXorOfTheFirstThree : Prop :=
  (∀ (i : Instr) (p : EncPorts) (s t : State), encodePorts i = some p → exec i s = .next t →
    t.encOut.frameValid = true → t.encOut.frame.opcode = p.opcode ∧
      t.encOut.frame.checksum = p.opcode ^^^ t.encOut.frame.address ^^^ t.encOut.frame.data) ∧
  (∀ (o a m : Byte) (s : State), ∃ t, exec (.frameRaw o a m) s = .next t ∧
    t.core.frame.checksum = o ^^^ a ^^^ m)

/-- R61: over selectors whose entries are relay numbers, the mask has as many bits set as the selector has
different entries; the mask of a union is the OR of the masks; and the two values the rule names. -/
def Obligations.MaskHasOneBitPerRelayAndUnionIsOr : Prop :=
  (∀ sel : List Byte, (∀ n ∈ sel, 1 ≤ n.toNat ∧ n.toNat ≤ 8) →
    ((List.range 8).countP fun k => (maskgenMask sel).getLsbD k) = sel.dedup.length) ∧
  (∀ u v w : List Byte, (∀ n ∈ u, 1 ≤ n.toNat ∧ n.toNat ≤ 8) → (∀ n ∈ v, 1 ≤ n.toNat ∧ n.toNat ≤ 8) →
    (∀ n, n ∈ w ↔ n ∈ u ∨ n ∈ v) → maskgenMask w = maskgenMask u ||| maskgenMask v) ∧
  maskgenMask [] = 0#8 ∧ maskgenMask [1#8, 2#8, 3#8, 4#8, 5#8, 6#8, 7#8, 8#8] = 0xFF#8

/-- R62: two selectors with the same set of entries give the same outcome, error outcomes included. -/
def Obligations.OrderAndRepetitionOfTheSelectorDoNotMatter : Prop :=
  ∀ (i j : Instr) (p : EncPorts) (sel : List Byte) (s t u : State),
    encodePorts i = some p → encodePorts j = some ⟨p.opcode, { p.args with sel := sel }⟩ →
    (∀ n, n ∈ sel ↔ n ∈ p.args.sel) → exec i s = .next t → exec j s = .next u →
      t.encOut.status = u.encOut.status ∧ t.encOut.frameValid = u.encOut.frameValid ∧
      (t.encOut.frameValid = true → t.encOut.frame = u.encOut.frame)

/-- R63: base address `A` and card offset `c ≥ 1` encode the address `A + c - 1` whenever that is at most 255, and
offset 1 encodes `A`. -/
def Obligations.EncodedAddressIsBasePlusOffsetMinusOne : Prop :=
  ∀ (i : Instr) (p : EncPorts) (s : State), encodePorts i = some p → p.opcode ≠ 1#8 →
    p.args.selPresent = true → (∀ n ∈ p.args.sel, 1 ≤ n.toNat ∧ n.toNat ≤ 8) →
    p.args.offsetPresent = true → 1 ≤ p.args.cardOffset.toNat →
    p.args.baseAddress.toNat + p.args.cardOffset.toNat - 1 ≤ 255 →
      ∃ t : State, exec i s = .next t ∧ t.encOut.frameValid = true ∧
        t.encOut.frame.address.toNat = p.args.baseAddress.toNat + p.args.cardOffset.toNat - 1 ∧
        (p.args.cardOffset = 1#8 → t.encOut.frame.address = p.args.baseAddress)

/-- R64: relay value 0 or 9 in the selector fails with InvalidRelayNumber, for every base address, every offset
input and whatever else the selector holds. -/
def Obligations.RelayZeroOrNineFailsWithInvalidRelayNumber : Prop :=
  ∀ (o : EncArgs) (s : State), o.selPresent = true → (0#8 ∈ o.sel ∨ 9#8 ∈ o.sel) →
    (∃ t, exec (.encSet o) s = .next t ∧ t.encOut.status = 1#3 ∧ t.encOut.frameValid = false) ∧
    (∃ t, exec (.encReset o) s = .next t ∧ t.encOut.status = 1#3 ∧ t.encOut.frameValid = false) ∧
    (∃ t, exec (.encToggle o) s = .next t ∧ t.encOut.status = 1#3 ∧ t.encOut.frameValid = false)

/-- R87: ENC.SET, ENC.RESET and ENC.TOGGLE report MissingRelaySelector exactly when no selector is given; ENC.INIT
never does. -/
def Obligations.MissingSelectorExactlyWhenAbsent : Prop :=
  ∀ (o : EncArgs) (s : State),
    (∃ t, exec (.encSet o) s = .next t ∧ (t.encOut.status = 2#3 ↔ o.selPresent = false)) ∧
    (∃ t, exec (.encReset o) s = .next t ∧ (t.encOut.status = 2#3 ↔ o.selPresent = false)) ∧
    (∃ t, exec (.encToggle o) s = .next t ∧ (t.encOut.status = 2#3 ↔ o.selPresent = false)) ∧
    (∃ t, exec (.encInit o) s = .next t ∧ t.encOut.status ≠ 2#3)

/-- 60_exceptions.md section 1, R89 and R90: with a legal selector, an offset of 0 ends with InvalidCardOffset and
a sum above 255 with AddressOverflow, and the front end's ADDRGEN shows the same fault. -/
def Obligations.BadOffsetAndOverflowAreReported : Prop :=
  ∀ (i : Instr) (p : EncPorts) (s : State), encodePorts i = some p → p.opcode ≠ 1#8 →
    p.args.selPresent = true → (∀ n ∈ p.args.sel, 1 ≤ n.toNat ∧ n.toNat ≤ 8) →
    p.args.offsetPresent = true →
      (p.args.cardOffset = 0#8 → ∃ t, exec i s = .next t ∧ t.encOut.status = 4#3 ∧
        t.encOut.frameValid = false ∧ t.addrgen.result = .raised .invalidCardOffset) ∧
      (255 < p.args.baseAddress.toNat + p.args.cardOffset.toNat - 1 → ∃ t, exec i s = .next t ∧
        t.encOut.status = 5#3 ∧ t.encOut.frameValid = false ∧
        t.addrgen.result = .raised .addressOverflow)

/-- 40_encode.md section 11 (the spec's own inference, R65): every frame a composed operation returns is
canonical, and every canonical frame is returned by the operation that it decodes to. -/
def Obligations.CanonicalFramesAreExactlyTheEncodersFrames : Prop :=
  (∀ (i : Instr) (p : EncPorts) (s t : State), encodePorts i = some p → exec i s = .next t →
    t.encOut.frameValid = true → frameCanonical t.encOut.frame = true) ∧
  (∀ (f : Frame) (s : State), frameCanonical f = true →
    ∃ (i : Instr) (t : State), decodeBytes f.toBytes = .ok i ∧ exec i s = .next t ∧
      t.encOut = ⟨0#3, true, f⟩)

/-- 30_encoding.md sections 2 and 4: for legal operands the frame on the encoder's port is, byte for byte, the word
that the opcode table's pattern gives for the instruction. -/
def Obligations.EncoderEmitsTheWordOfItsRow : Prop :=
  ∀ (i : Instr) (p : EncPorts) (s : State), encodePorts i = some p → i.wellFormed = true →
    ∃ t : State, exec i s = .next t ∧ t.encOut.frameValid = true ∧
      encodeBytes i = some t.encOut.frame.toBytes

/-- 40_encode.md section 5, R54: FRAME.RAW answers on all inputs and raises nothing; `canonical` is 1 exactly for
opcode 6, 7 or 8, or opcode 1 with mask 0. That all but the core and XORSUM keep their values is the model's choice
(log 1). On any four bytes the predicate `canonical(F)` says that and
that the fourth byte is the XOR of the first three. -/
def Obligations.FrameRawAnswersOnAllInputs : Prop :=
  (∀ (o a m : Byte) (s : State), ∃ b : Bool,
    exec (.frameRaw o a m) s = .next { s with
      core := ⟨o, a, m, ⟨o, a, m, o ^^^ a ^^^ m⟩, b⟩, xorsum := ⟨o, a, m, o ^^^ a ^^^ m⟩ } ∧
    (b = true ↔ (o = 6#8 ∨ o = 7#8 ∨ o = 8#8) ∨ (o = 1#8 ∧ m = 0#8)) ∧
    (b = true ↔ frameCanonical ⟨o, a, m, o ^^^ a ^^^ m⟩ = true)) ∧
  (∀ f : Frame, frameCanonical f = true ↔ f.checksum = f.opcode ^^^ f.address ^^^ f.data ∧
    ((f.opcode = 6#8 ∨ f.opcode = 7#8 ∨ f.opcode = 8#8) ∨ (f.opcode = 1#8 ∧ f.data = 0#8)))

/-! ### The functions of the front end -/

/-- R50, and logs 1 and 13 for the function run by itself: OPDEC's two outputs, and nothing else changes. -/
def Obligations.OpdecClassifiesTheOpcode : Prop :=
  ∀ (o : Byte) (s : State), ∃ l n : Bool,
    exec (.opdec o) s = .next { s with opdec := ⟨o, l, n⟩ } ∧
    (l = true ↔ o = 1#8 ∨ o = 6#8 ∨ o = 7#8 ∨ o = 8#8) ∧ (n = true ↔ o = 1#8)

/-- R51, and logs 1 and 13 for the function run by itself: `bad` exactly when an entry is outside 1..8; with no such
entry, bit `n-1` of the mask is set exactly for the entries `n`. Nothing else changes, and nothing is said of the
mask of a bad selector. -/
def Obligations.MaskgenSetsBitNMinusOneForEntryN : Prop :=
  ∀ (sel : List Byte) (s : State), ∃ (m : Byte) (b : Bool),
    exec (.maskgen sel) s = .next { s with maskgen := ⟨sel, m, b⟩ } ∧
    (b = true ↔ ∃ n ∈ sel, n.toNat = 0 ∨ 9 ≤ n.toNat) ∧
    (b = false → ∀ n : Nat, 1 ≤ n → n ≤ 8 → (m.getLsbD (n - 1) = true ↔ BitVec.ofNat 8 n ∈ sel))

/-- R52, and logs 1, 13 and 14 for the function run by itself: the address or the fault. Nothing else changes. -/
def Obligations.AddrgenGivesTheExactSumOrAFault : Prop :=
  ∀ (b : Byte) (p : Bool) (c : Byte) (n : Bool) (s : State), ∃ r : AddrResult,
    exec (.addrgen b p c n) s = .next { s with addrgen := ⟨b, p, c, n, r⟩ } ∧
    (n = true ∨ p = false → r = .address b) ∧
    (n = false → p = true →
      (c = 0#8 → r = .raised .invalidCardOffset) ∧
      (c ≠ 0#8 → 255 < b.toNat + (c.toNat - 1) → r = .raised .addressOverflow) ∧
      (c ≠ 0#8 → b.toNat + (c.toNat - 1) ≤ 255 → ∃ a : Byte, r = .address a ∧ a.toNat = b.toNat + (c.toNat - 1)))

/-- R53, and logs 1 and 13 for the function run by itself: the XOR of the three bytes. Nothing else changes. -/
def Obligations.XorsumGivesTheXorOfThreeBytes : Prop :=
  ∀ (a b c : Byte) (s : State), ∃ x : Byte,
    exec (.xorsum a b c) s = .next { s with xorsum := ⟨a, b, c, x⟩ } ∧ x = a ^^^ b ^^^ c ∧
    (∀ i : Nat, i < 8 → x.getLsbD i = (a.getLsbD i ^^ b.getLsbD i ^^ c.getLsbD i)) ∧
    x ^^^ a ^^^ b ^^^ c = 0#8

/-- 40_encode.md section 4 (an inference of the spec's own): changing one byte of a frame whose checksum is right,
in any bit, makes the validator's checksum test fail. -/
def Obligations.ChangingOneByteFailsTheChecksum : Prop :=
  ∀ (f g sent : Frame) (k : Fin 4) (s t : State), csumOk f = true → g.byte k ≠ f.byte k →
    (∀ j : Fin 4, j ≠ k → g.byte j = f.byte j) → exec (.validate sent g) s = .next t →
      t.valOut.csumOk = false ∧ t.valOut.status ≠ 0#2

/-! ### The validate family -/

/-- 41_validate.md sections 2 and 3, R74: VALIDATE drives the three flags each from its own bytes, and status, `got`
and `expected` by the first failing stage. That all but the validator's ports keep their values is the model's
choice (log 1). -/
def Obligations.ValidateReportsTheFirstFailingStage : Prop :=
  ∀ (sent resp : Frame) (s : State), ∃ o : ValOut,
    exec (.validate sent resp) s = .next { s with valIn := ⟨sent, resp⟩, valOut := o } ∧
    validatorAnswers ⟨sent, resp⟩ o

/-- R75: validation succeeds exactly when the three conditions of the source hold. -/
def Obligations.ValidateSucceedsExactlyWhenAllStagesPass : Prop :=
  ∀ (sent resp : Frame) (s : State), ∃ t : State, exec (.validate sent resp) s = .next t ∧
    (t.valOut.status = 0#2 ↔
      t.valOut.opOk = true ∧ t.valOut.addrOk = true ∧ t.valOut.csumOk = true) ∧
    (t.valOut.status = 0#2 ↔
      resp.opcode = ~~~ sent.opcode ∧ (sent.address = 0#8 ∨ resp.address = sent.address) ∧
      resp.checksum = resp.opcode ^^^ resp.address ^^^ resp.data)

/-- 41_validate.md section 4: the data and checksum of the sent frame are never read; the response's data is read
only through the checksum XOR, and so is its address when the sent address is 0. The payload is compared where it
has a meaning. -/
def Obligations.NoOtherByteIsInspected : Prop :=
  (∀ (sent sent' resp : Frame) (s t u : State),
    sent'.opcode = sent.opcode → sent'.address = sent.address →
    exec (.validate sent resp) s = .next t → exec (.validate sent' resp) s = .next u →
      t.valOut.opOk = u.valOut.opOk ∧ t.valOut.addrOk = u.valOut.addrOk ∧
      t.valOut.csumOk = u.valOut.csumOk ∧ t.valOut.status = u.valOut.status ∧
      (t.valOut.status ≠ 0#2 → t.valOut.got = u.valOut.got ∧ t.valOut.expected = u.valOut.expected)) ∧
  (∀ (sent resp resp' : Frame) (s t u : State),
    resp'.opcode = resp.opcode → (resp'.address = resp.address ∨ sent.address = 0#8) →
    resp'.checksum ^^^ resp'.address ^^^ resp'.data = resp.checksum ^^^ resp.address ^^^ resp.data →
    exec (.validate sent resp) s = .next t → exec (.validate sent resp') s = .next u →
      t.valOut.opOk = u.valOut.opOk ∧ t.valOut.addrOk = u.valOut.addrOk ∧
      t.valOut.csumOk = u.valOut.csumOk ∧ t.valOut.status = u.valOut.status)

/-- 41_validate.md section 5 (an inference of the spec's own): 256 responses validate for a sent frame whose
address is not 0, and 65536 where it is 0. -/
def Obligations.CountOfValidatingResponses : Prop :=
  ∀ (sent : Frame) (s : State),
    Nat.card { resp : Frame // ∃ t, exec (.validate sent resp) s = .next t ∧ t.valOut.status = 0#2 } =
      if sent.address = 0#8 then 65536 else 256

/-- 41_validate.md section 2: a response that echoes the command fails stage 1, whatever the command is. -/
def Obligations.EchoOfTheCommandIsUnexpectedOpcode : Prop :=
  ∀ (sent resp : Frame) (s : State), resp.opcode = sent.opcode →
    ∃ t, exec (.validate sent resp) s = .next t ∧ t.valOut.opOk = false ∧ t.valOut.status = 1#2 ∧
      t.valOut.got = sent.opcode ∧ t.valOut.expected = ~~~ sent.opcode

/-- The model's choice (log 12), with 30_encoding.md section 3: a response frame of one of the four classes is
judged, as VALIDATE judges it, against the frame the host holds (log 21). That all but the validator's ports keep
their values is the model's choice too (log 1). -/
def Obligations.AcknowledgementsAreJudgedAgainstTheSentFrame : Prop :=
  ∀ (a d c : Byte) (s : State),
    (∃ o, exec (.ackInit a d c) s = .next
        { s with valIn := ⟨s.host.held, ⟨254#8, a, d, c⟩⟩, valOut := o } ∧
      validatorAnswers ⟨s.host.held, ⟨254#8, a, d, c⟩⟩ o) ∧
    (∃ o, exec (.ackSet a d c) s = .next
        { s with valIn := ⟨s.host.held, ⟨249#8, a, d, c⟩⟩, valOut := o } ∧
      validatorAnswers ⟨s.host.held, ⟨249#8, a, d, c⟩⟩ o) ∧
    (∃ o, exec (.ackReset a d c) s = .next
        { s with valIn := ⟨s.host.held, ⟨248#8, a, d, c⟩⟩, valOut := o } ∧
      validatorAnswers ⟨s.host.held, ⟨248#8, a, d, c⟩⟩ o) ∧
    (∃ o, exec (.ackToggle a d c) s = .next
        { s with valIn := ⟨s.host.held, ⟨247#8, a, d, c⟩⟩, valOut := o } ∧
      validatorAnswers ⟨s.host.held, ⟨247#8, a, d, c⟩⟩ o)

/-- 30_encoding.md section 3, with logs 12 and 21: for the frame the host holds, a response of the class of its
command validates exactly when its address agrees (or the sent address is 0) and its checksum is right; a response
of another command's class never does. -/
def Obligations.AcknowledgementOfTheSentCommandValidates : Prop :=
  ∀ (a d c : Byte) (s : State),
    (∃ t, exec (.ackInit a d c) s = .next t ∧ (t.valOut.status = 0#2 ↔ s.host.held.opcode = 1#8 ∧
      (s.host.held.address = 0#8 ∨ a = s.host.held.address) ∧ c = 254#8 ^^^ a ^^^ d)) ∧
    (∃ t, exec (.ackSet a d c) s = .next t ∧ (t.valOut.status = 0#2 ↔ s.host.held.opcode = 6#8 ∧
      (s.host.held.address = 0#8 ∨ a = s.host.held.address) ∧ c = 249#8 ^^^ a ^^^ d)) ∧
    (∃ t, exec (.ackReset a d c) s = .next t ∧ (t.valOut.status = 0#2 ↔ s.host.held.opcode = 7#8 ∧
      (s.host.held.address = 0#8 ∨ a = s.host.held.address) ∧ c = 248#8 ^^^ a ^^^ d)) ∧
    (∃ t, exec (.ackToggle a d c) s = .next t ∧ (t.valOut.status = 0#2 ↔ s.host.held.opcode = 8#8 ∧
      (s.host.held.address = 0#8 ∨ a = s.host.held.address) ∧ c = 247#8 ^^^ a ^^^ d))

/-! ### The whole machine -/

/-- 00_scope.md section 4 and 10_state.md section 1: two transactions with the same inputs give the same outputs,
whatever ran before them; every wire of the encoder's side and of the validator's side included. The frame the host
holds is an input of ACK.* (log 12, log 21). That it holds of the bytes without meaning too rests on logs 5, 6, 22. -/
def Obligations.OutputsDependOnTheTransactionsInputsOnly : Prop :=
  (∀ (i : Instr) (p : EncPorts) (s s' t t' : State), encodePorts i = some p →
    exec i s = .next t → exec i s' = .next t' → t.encIn = t'.encIn ∧ t.encOut = t'.encOut ∧
      t.opdec = t'.opdec ∧ t.maskgen = t'.maskgen ∧ t.addrgen = t'.addrgen ∧ t.core = t'.core ∧
      t.xorsum = t'.xorsum) ∧
  (∀ (o a m : Byte) (s s' t t' : State),
    exec (.frameRaw o a m) s = .next t → exec (.frameRaw o a m) s' = .next t' →
      t.core = t'.core ∧ t.xorsum = t'.xorsum) ∧
  (∀ (i : Instr) (s s' t t' : State), validatorSide i = true → s.host.held = s'.host.held →
    exec i s = .next t → exec i s' = .next t' → t.valIn = t'.valIn ∧ t.valOut = t'.valOut) ∧
  (∀ (sent resp : Frame) (s s' t t' : State),
    exec (.validate sent resp) s = .next t → exec (.validate sent resp) s' = .next t' →
      t.valIn = t'.valIn ∧ t.valOut = t'.valOut)

/-- 10_state.md sections 1 and 9: the block keeps nothing that a later transaction observes. From two states whose
hosts hold the same frame, with any values on the wires, every instruction leaves each wire alone or gives it the
same value, and it never changes the host's data. (What the host holds is the host's: log 21.) -/
def Obligations.NoTransactionObservesAnEarlierOne : Prop :=
  ∀ (i : Instr) (s s' : State), s.host.held = s'.host.held →
    ∃ t t' : State, exec i s = .next t ∧ exec i s' = .next t' ∧ t.host = s.host ∧ t'.host = s'.host ∧
      State.keptOrSame State.encIn s s' t t' ∧ State.keptOrSame State.encOut s s' t t' ∧
      State.keptOrSame State.core s s' t t' ∧ State.keptOrSame State.valIn s s' t t' ∧
      State.keptOrSame State.valOut s s' t t' ∧ State.keptOrSame State.opdec s s' t t' ∧
      State.keptOrSame State.maskgen s s' t t' ∧ State.keptOrSame State.addrgen s s' t t' ∧
      State.keptOrSame State.xorsum s s' t t'

/-- 20_memory.md section 7: a transaction of the encoder's side and one of the validator's side commute. -/
def Obligations.EncoderAndValidatorTransactionsCommute : Prop :=
  ∀ (i j : Instr) (s : State), validatorSide i = false → validatorSide j = true →
    ∃ t u v : State, exec i s = .next t ∧ exec j s = .next u ∧ exec j t = .next v ∧ exec i u = .next v

/-- 20_memory.md section 4: every operation is idempotent. -/
def Obligations.RepeatingATransactionChangesNothing : Prop :=
  ∀ (i : Instr) (s : State), ∃ t : State, exec i s = .next t ∧ exec i t = .next t

/-- 70_reset_and_hazards.md section 3: in every state in which outputs are functions of their inputs, what the
host may send, from the encoder or from the core, is a canonical frame. -/
def Obligations.WhatMayBeSentIsCanonical : Prop :=
  ∀ s : State, s.consistent →
    (s.maySendFrame → frameCanonical s.encOut.frame = true) ∧
    (s.maySendRaw → frameCanonical s.core.frame = true)

/-! ### The host's session (outside the block) -/

/-- 30_encoding.md section 8: a batch is fail-fast; once a card has failed, further cards change nothing. -/
def Obligations.BatchStopsAtTheFirstError : Prop :=
  ∀ (c : Command) (base : Byte) (relays cards more : List Byte) (answers : List (Option Frame)) (s : State)
    (e : SessionError), (sessionCards c base relays cards answers s).error = some e →
      sessionCards c base relays (cards ++ more) answers s = sessionCards c base relays cards answers s

/-- 30_encoding.md section 8 and 70_reset_and_hazards.md section 3: a batch writes canonical frames only, at most
one a card, and without an error exactly one a card. -/
def Obligations.BatchWritesOneCanonicalFramePerCard : Prop :=
  ∀ (c : Command) (base : Byte) (relays cards : List Byte) (answers : List (Option Frame)) (s : State),
    (∀ f ∈ (sessionCards c base relays cards answers s).written, frameCanonical f = true) ∧
    (sessionCards c base relays cards answers s).written.length ≤ cards.length ∧
    ((sessionCards c base relays cards answers s).error = none →
      (sessionCards c base relays cards answers s).written.length = cards.length)
end

