-- ==== Sys2Proof/Laws/Operands.lean ====
section
/-! SUPPORT. What the operand functions, the flags and the codes do, each said once. -/

namespace Sys2Proof.Machine

/-! ### OPDEC -/

theorem opdecLegal_iff (o : Byte) : opdecLegal o = true ↔ commandOpcode o := by
  simp [opdecLegal, commandOpcode, or_assoc]

theorem opdecIsInit_iff (o : Byte) : opdecIsInit o = true ↔ o = 1#8 := by
  simp [opdecIsInit]

theorem maskOpcode_iff (o : Byte) : maskOpcode o ↔ opdecLegal o = true ∧ opdecIsInit o = false := by
  simp only [maskOpcode, opdecLegal, opdecIsInit, Bool.or_eq_true, beq_iff_eq, beq_eq_false_iff_ne]
  constructor
  · rintro (rfl | rfl | rfl) <;> decide
  · rintro ⟨h, hn⟩
    tauto

/-! ### MASKGEN -/

theorem maskgenStep_legal {n : Byte} (h : 1 ≤ n.toNat ∧ n.toNat ≤ 8) (acc : Byte × Bool) :
    maskgenStep acc n = (acc.1 ||| (1#8 <<< (n.toNat - 1)), acc.2) := if_pos h

theorem maskgenStep_illegal {n : Byte} (h : ¬ (1 ≤ n.toNat ∧ n.toNat ≤ 8)) (acc : Byte × Bool) :
    maskgenStep acc n = (acc.1, true) := if_neg h

theorem foldl_maskgenStep_bad (sel : List Byte) (acc : Byte × Bool) :
    (sel.foldl maskgenStep acc).2 = true ↔
      acc.2 = true ∨ ∃ n ∈ sel, ¬ (1 ≤ n.toNat ∧ n.toNat ≤ 8) := by
  induction sel generalizing acc with
  | nil => simp
  | cons n sel ih =>
    simp only [List.foldl_cons, ih, List.mem_cons, exists_eq_or_imp]
    by_cases h : 1 ≤ n.toNat ∧ n.toNat ≤ 8
    · simp only [maskgenStep_legal h, h, and_self, not_true_eq_false, false_or]
    · simp only [maskgenStep_illegal h, h, not_false_eq_true, true_or, or_true]

theorem foldl_maskgenStep_getLsbD (sel : List Byte) (acc : Byte × Bool) (k : Nat) (hk : k < 8) :
    (sel.foldl maskgenStep acc).1.getLsbD k = true ↔
      acc.1.getLsbD k = true ∨ BitVec.ofNat 8 (k + 1) ∈ sel := by
  induction sel generalizing acc with
  | nil => simp
  | cons n sel ih =>
    have key : BitVec.ofNat 8 (k + 1) = n ↔ n.toNat = k + 1 := by
      constructor
      · rintro rfl
        simp only [BitVec.toNat_ofNat]
        omega
      · intro hn
        apply BitVec.eq_of_toNat_eq
        simp only [BitVec.toNat_ofNat]
        omega
    by_cases h : 1 ≤ n.toNat ∧ n.toNat ≤ 8
    · have bit : (1#8 <<< (n.toNat - 1)).getLsbD k = true ↔ n.toNat = k + 1 := by
        simp only [BitVec.getLsbD_shiftLeft, BitVec.getLsbD_one, Bool.and_eq_true, decide_eq_true_eq,
          Bool.not_eq_true', decide_eq_false_iff_not]
        omega
      simp only [List.foldl_cons, maskgenStep_legal h, ih, BitVec.getLsbD_or, Bool.or_eq_true, bit,
        List.mem_cons, key]
      tauto
    · have hn : ¬ n.toNat = k + 1 := by omega
      simp [maskgenStep_illegal h, ih, key, hn]

/-- `bad` says that some entry is outside 1..8 (R51). -/
theorem maskgenBad_iff (sel : List Byte) :
    maskgenBad sel = true ↔ ∃ n ∈ sel, n.toNat = 0 ∨ 9 ≤ n.toNat := by
  simp only [maskgenBad, maskgenFold, foldl_maskgenStep_bad, Bool.false_eq_true, false_or]
  constructor
  · rintro ⟨n, hn, h⟩
    exact ⟨n, hn, by omega⟩
  · rintro ⟨n, hn, h⟩
    exact ⟨n, hn, by omega⟩

theorem maskgenBad_eq_false_iff (sel : List Byte) :
    maskgenBad sel = false ↔ ∀ n ∈ sel, 1 ≤ n.toNat ∧ n.toNat ≤ 8 := by
  rw [← Bool.not_eq_true, maskgenBad_iff]
  push Not
  exact forall₂_congr fun n _ => by omega

/-- With no entry outside 1..8, bit `k` of the mask says whether relay `k+1` is listed (R51). -/
theorem maskgenMask_getLsbD {sel : List Byte} (h : maskgenBad sel = false) {k : Nat} (hk : k < 8) :
    (maskgenMask sel).getLsbD k = true ↔ BitVec.ofNat 8 (k + 1) ∈ sel := by
  simp [maskgenMask, h, maskgenFold, foldl_maskgenStep_getLsbD _ _ _ hk]

/-! ### ADDRGEN -/

theorem addrgenResult_base {b c : Byte} {p n : Bool} (h : n = true ∨ p = false) :
    addrgenResult b p c n = .address b := by
  have hb : ¬ 255 < b.toNat := by
    have := b.isLt
    omega
  have off : effectiveOffset p c n = 1 := by
    rcases h with rfl | rfl <;> simp [effectiveOffset]
  simp [addrgenResult, off, hb]

theorem addrgenResult_offset (b c : Byte) :
    addrgenResult b true c false =
      if c.toNat = 0 then .raised .invalidCardOffset
      else if 255 < b.toNat + (c.toNat - 1) then .raised .addressOverflow
      else .address (BitVec.ofNat 8 (b.toNat + (c.toNat - 1))) := by
  simp [addrgenResult, effectiveOffset]

/-- ADDRGEN has two faults (R52). -/
theorem addrgenResult_raised {b c : Byte} {p n : Bool} {e : EncError} (h : addrgenResult b p c n = .raised e) :
    e = .invalidCardOffset ∨ e = .addressOverflow := by
  simp only [addrgenResult] at h
  repeat' split at h
  all_goals cases h
  · exact .inl rfl
  · exact .inr rfl

/-! ### Flags -/

theorem xor_ones (x : Byte) : x ^^^ 0xFF#8 = ~~~ x := by
  rw [show (0xFF#8 : Byte) = BitVec.allOnes 8 by decide, BitVec.xor_allOnes]

theorem expectedOpcode_eq (sent : Frame) : expectedOpcode sent = ~~~ sent.opcode :=
  xor_ones _

theorem opOk_iff (sent resp : Frame) : opOk sent resp = true ↔ resp.opcode = ~~~ sent.opcode := by
  simp [opOk, expectedOpcode_eq]

theorem addrOk_iff (sent resp : Frame) :
    addrOk sent resp = true ↔ sent.address = 0#8 ∨ resp.address = sent.address := by
  simp [addrOk]

theorem csumOk_iff (resp : Frame) :
    csumOk resp = true ↔ resp.checksum = resp.opcode ^^^ resp.address ^^^ resp.data := by
  simp [csumOk, expectedChecksum]

theorem canonicalBit_iff (o m : Byte) :
    canonicalBit o m = true ↔ maskOpcode o ∨ (o = 1#8 ∧ m = 0#8) := by
  simp [canonicalBit, maskOpcode, or_assoc]

end Sys2Proof.Machine
end

