-- ==== Sys2Proof/Laws/State.lean ====
section
/-! SUPPORT. One lemma for each field of State under each update of Machine/Ops.lean. -/

namespace Sys2Proof.Machine

/-- The address that ADDRGEN feeds the core in an encode transaction with ports `p`. -/
def coreAddress (p : EncPorts) : Byte :=
  AddrgenWires.addressOut ⟨p.args.baseAddress, p.args.offsetPresent, p.args.cardOffset, opdecIsInit p.opcode,
    addrgenResult p.args.baseAddress p.args.offsetPresent p.args.cardOffset (opdecIsInit p.opcode)⟩

/-- The relay mask that MASKGEN, or the zero of Init, feeds the core in an encode transaction with ports `p`. -/
def coreMask (p : EncPorts) : Byte := if opdecIsInit p.opcode then 0#8 else maskgenMask p.args.sel

@[simp] theorem driveEncIn_host (s : State) (p : EncPorts) : (s.driveEncIn p).host = s.host := rfl
@[simp] theorem driveEncIn_encIn (s : State) (p : EncPorts) : (s.driveEncIn p).encIn = p := rfl
@[simp] theorem driveEncIn_encOut (s : State) (p : EncPorts) : (s.driveEncIn p).encOut = s.encOut := rfl
@[simp] theorem driveEncIn_core (s : State) (p : EncPorts) : (s.driveEncIn p).core = s.core := rfl
@[simp] theorem driveEncIn_valIn (s : State) (p : EncPorts) : (s.driveEncIn p).valIn = s.valIn := rfl
@[simp] theorem driveEncIn_valOut (s : State) (p : EncPorts) : (s.driveEncIn p).valOut = s.valOut := rfl
@[simp] theorem driveEncIn_opdec (s : State) (p : EncPorts) : (s.driveEncIn p).opdec = s.opdec := rfl
@[simp] theorem driveEncIn_maskgen (s : State) (p : EncPorts) : (s.driveEncIn p).maskgen = s.maskgen := rfl
@[simp] theorem driveEncIn_addrgen (s : State) (p : EncPorts) : (s.driveEncIn p).addrgen = s.addrgen := rfl
@[simp] theorem driveEncIn_xorsum (s : State) (p : EncPorts) : (s.driveEncIn p).xorsum = s.xorsum := rfl

@[simp] theorem driveOpdec_host (s : State) (o : Byte) : (s.driveOpdec o).host = s.host := rfl
@[simp] theorem driveOpdec_encIn (s : State) (o : Byte) : (s.driveOpdec o).encIn = s.encIn := rfl
@[simp] theorem driveOpdec_encOut (s : State) (o : Byte) : (s.driveOpdec o).encOut = s.encOut := rfl
@[simp] theorem driveOpdec_core (s : State) (o : Byte) : (s.driveOpdec o).core = s.core := rfl
@[simp] theorem driveOpdec_valIn (s : State) (o : Byte) : (s.driveOpdec o).valIn = s.valIn := rfl
@[simp] theorem driveOpdec_valOut (s : State) (o : Byte) : (s.driveOpdec o).valOut = s.valOut := rfl
@[simp] theorem driveOpdec_opdec (s : State) (o : Byte) :
    (s.driveOpdec o).opdec = ⟨o, opdecLegal o, opdecIsInit o⟩ := rfl
@[simp] theorem driveOpdec_maskgen (s : State) (o : Byte) : (s.driveOpdec o).maskgen = s.maskgen := rfl
@[simp] theorem driveOpdec_addrgen (s : State) (o : Byte) : (s.driveOpdec o).addrgen = s.addrgen := rfl
@[simp] theorem driveOpdec_xorsum (s : State) (o : Byte) : (s.driveOpdec o).xorsum = s.xorsum := rfl

@[simp] theorem driveMaskgen_host (s : State) (sel : List Byte) :
    (s.driveMaskgen sel).host = s.host := rfl
@[simp] theorem driveMaskgen_encIn (s : State) (sel : List Byte) : (s.driveMaskgen sel).encIn = s.encIn := rfl
@[simp] theorem driveMaskgen_encOut (s : State) (sel : List Byte) : (s.driveMaskgen sel).encOut = s.encOut := rfl
@[simp] theorem driveMaskgen_core (s : State) (sel : List Byte) : (s.driveMaskgen sel).core = s.core := rfl
@[simp] theorem driveMaskgen_valIn (s : State) (sel : List Byte) : (s.driveMaskgen sel).valIn = s.valIn := rfl
@[simp] theorem driveMaskgen_valOut (s : State) (sel : List Byte) : (s.driveMaskgen sel).valOut = s.valOut := rfl
@[simp] theorem driveMaskgen_opdec (s : State) (sel : List Byte) : (s.driveMaskgen sel).opdec = s.opdec := rfl
@[simp] theorem driveMaskgen_maskgen (s : State) (sel : List Byte) :
    (s.driveMaskgen sel).maskgen = ⟨sel, maskgenMask sel, maskgenBad sel⟩ := rfl
@[simp] theorem driveMaskgen_addrgen (s : State) (sel : List Byte) :
    (s.driveMaskgen sel).addrgen = s.addrgen := rfl
@[simp] theorem driveMaskgen_xorsum (s : State) (sel : List Byte) : (s.driveMaskgen sel).xorsum = s.xorsum := rfl

@[simp] theorem driveAddrgen_host (s : State) (b : Byte) (p : Bool) (c : Byte) (n : Bool) :
    (s.driveAddrgen b p c n).host = s.host := rfl
@[simp] theorem driveAddrgen_encIn (s : State) (b : Byte) (p : Bool) (c : Byte) (n : Bool) :
    (s.driveAddrgen b p c n).encIn = s.encIn := rfl
@[simp] theorem driveAddrgen_encOut (s : State) (b : Byte) (p : Bool) (c : Byte) (n : Bool) :
    (s.driveAddrgen b p c n).encOut = s.encOut := rfl
@[simp] theorem driveAddrgen_core (s : State) (b : Byte) (p : Bool) (c : Byte) (n : Bool) :
    (s.driveAddrgen b p c n).core = s.core := rfl
@[simp] theorem driveAddrgen_valIn (s : State) (b : Byte) (p : Bool) (c : Byte) (n : Bool) :
    (s.driveAddrgen b p c n).valIn = s.valIn := rfl
@[simp] theorem driveAddrgen_valOut (s : State) (b : Byte) (p : Bool) (c : Byte) (n : Bool) :
    (s.driveAddrgen b p c n).valOut = s.valOut := rfl
@[simp] theorem driveAddrgen_opdec (s : State) (b : Byte) (p : Bool) (c : Byte) (n : Bool) :
    (s.driveAddrgen b p c n).opdec = s.opdec := rfl
@[simp] theorem driveAddrgen_maskgen (s : State) (b : Byte) (p : Bool) (c : Byte) (n : Bool) :
    (s.driveAddrgen b p c n).maskgen = s.maskgen := rfl
@[simp] theorem driveAddrgen_addrgen (s : State) (b : Byte) (p : Bool) (c : Byte) (n : Bool) :
    (s.driveAddrgen b p c n).addrgen = ⟨b, p, c, n, addrgenResult b p c n⟩ := rfl
@[simp] theorem driveAddrgen_xorsum (s : State) (b : Byte) (p : Bool) (c : Byte) (n : Bool) :
    (s.driveAddrgen b p c n).xorsum = s.xorsum := rfl

@[simp] theorem driveXorsum_host (s : State) (a b c : Byte) : (s.driveXorsum a b c).host = s.host := rfl
@[simp] theorem driveXorsum_encIn (s : State) (a b c : Byte) : (s.driveXorsum a b c).encIn = s.encIn := rfl
@[simp] theorem driveXorsum_encOut (s : State) (a b c : Byte) : (s.driveXorsum a b c).encOut = s.encOut := rfl
@[simp] theorem driveXorsum_core (s : State) (a b c : Byte) : (s.driveXorsum a b c).core = s.core := rfl
@[simp] theorem driveXorsum_valIn (s : State) (a b c : Byte) : (s.driveXorsum a b c).valIn = s.valIn := rfl
@[simp] theorem driveXorsum_valOut (s : State) (a b c : Byte) : (s.driveXorsum a b c).valOut = s.valOut := rfl
@[simp] theorem driveXorsum_opdec (s : State) (a b c : Byte) : (s.driveXorsum a b c).opdec = s.opdec := rfl
@[simp] theorem driveXorsum_maskgen (s : State) (a b c : Byte) : (s.driveXorsum a b c).maskgen = s.maskgen := rfl
@[simp] theorem driveXorsum_addrgen (s : State) (a b c : Byte) : (s.driveXorsum a b c).addrgen = s.addrgen := rfl
@[simp] theorem driveXorsum_xorsum (s : State) (a b c : Byte) :
    (s.driveXorsum a b c).xorsum = ⟨a, b, c, a ^^^ b ^^^ c⟩ := rfl

@[simp] theorem driveCore_host (s : State) (o a m : Byte) : (s.driveCore o a m).host = s.host := rfl
@[simp] theorem driveCore_encIn (s : State) (o a m : Byte) : (s.driveCore o a m).encIn = s.encIn := rfl
@[simp] theorem driveCore_encOut (s : State) (o a m : Byte) : (s.driveCore o a m).encOut = s.encOut := rfl
@[simp] theorem driveCore_core (s : State) (o a m : Byte) :
    (s.driveCore o a m).core = ⟨o, a, m, ⟨o, a, m, o ^^^ a ^^^ m⟩, canonicalBit o m⟩ := rfl
@[simp] theorem driveCore_valIn (s : State) (o a m : Byte) : (s.driveCore o a m).valIn = s.valIn := rfl
@[simp] theorem driveCore_valOut (s : State) (o a m : Byte) : (s.driveCore o a m).valOut = s.valOut := rfl
@[simp] theorem driveCore_opdec (s : State) (o a m : Byte) : (s.driveCore o a m).opdec = s.opdec := rfl
@[simp] theorem driveCore_maskgen (s : State) (o a m : Byte) : (s.driveCore o a m).maskgen = s.maskgen := rfl
@[simp] theorem driveCore_addrgen (s : State) (o a m : Byte) : (s.driveCore o a m).addrgen = s.addrgen := rfl
@[simp] theorem driveCore_xorsum (s : State) (o a m : Byte) :
    (s.driveCore o a m).xorsum = ⟨o, a, m, o ^^^ a ^^^ m⟩ := rfl

@[simp] theorem driveEncoder_host (p : EncPorts) (s : State) : (s.driveEncoder p).host = s.host := rfl
@[simp] theorem driveEncoder_encIn (p : EncPorts) (s : State) : (s.driveEncoder p).encIn = p := rfl
@[simp] theorem driveEncoder_encOut (p : EncPorts) (s : State) : (s.driveEncoder p).encOut = s.encOut := rfl
@[simp] theorem driveEncoder_valIn (p : EncPorts) (s : State) : (s.driveEncoder p).valIn = s.valIn := rfl
@[simp] theorem driveEncoder_valOut (p : EncPorts) (s : State) : (s.driveEncoder p).valOut = s.valOut := rfl
@[simp] theorem driveEncoder_opdec (p : EncPorts) (s : State) :
    (s.driveEncoder p).opdec = ⟨p.opcode, opdecLegal p.opcode, opdecIsInit p.opcode⟩ := rfl
@[simp] theorem driveEncoder_maskgen (p : EncPorts) (s : State) :
    (s.driveEncoder p).maskgen = ⟨p.args.sel, maskgenMask p.args.sel, maskgenBad p.args.sel⟩ := rfl
@[simp] theorem driveEncoder_addrgen (p : EncPorts) (s : State) :
    (s.driveEncoder p).addrgen = ⟨p.args.baseAddress, p.args.offsetPresent, p.args.cardOffset,
      opdecIsInit p.opcode, addrgenResult p.args.baseAddress p.args.offsetPresent p.args.cardOffset
        (opdecIsInit p.opcode)⟩ := rfl
@[simp] theorem driveEncoder_core (p : EncPorts) (s : State) :
    (s.driveEncoder p).core = ⟨p.opcode, coreAddress p, coreMask p,
      ⟨p.opcode, coreAddress p, coreMask p, p.opcode ^^^ coreAddress p ^^^ coreMask p⟩,
      canonicalBit p.opcode (coreMask p)⟩ := rfl
@[simp] theorem driveEncoder_xorsum (p : EncPorts) (s : State) :
    (s.driveEncoder p).xorsum = ⟨p.opcode, coreAddress p, coreMask p,
      p.opcode ^^^ coreAddress p ^^^ coreMask p⟩ := rfl

@[simp] theorem driveValidator_host (s : State) (x r : Frame) :
    (s.driveValidator x r).host = s.host := rfl
@[simp] theorem driveValidator_encIn (s : State) (x r : Frame) : (s.driveValidator x r).encIn = s.encIn := rfl
@[simp] theorem driveValidator_encOut (s : State) (x r : Frame) : (s.driveValidator x r).encOut = s.encOut := rfl
@[simp] theorem driveValidator_core (s : State) (x r : Frame) : (s.driveValidator x r).core = s.core := rfl
@[simp] theorem driveValidator_valIn (s : State) (x r : Frame) : (s.driveValidator x r).valIn = ⟨x, r⟩ := rfl
@[simp] theorem driveValidator_valOut (s : State) (x r : Frame) :
    (s.driveValidator x r).valOut = ⟨opOk x r, addrOk x r, csumOk r, s.valOut.status, s.valOut.got, s.valOut.expected⟩ := rfl
@[simp] theorem driveValidator_opdec (s : State) (x r : Frame) : (s.driveValidator x r).opdec = s.opdec := rfl
@[simp] theorem driveValidator_maskgen (s : State) (x r : Frame) :
    (s.driveValidator x r).maskgen = s.maskgen := rfl
@[simp] theorem driveValidator_addrgen (s : State) (x r : Frame) :
    (s.driveValidator x r).addrgen = s.addrgen := rfl
@[simp] theorem driveValidator_xorsum (s : State) (x r : Frame) : (s.driveValidator x r).xorsum = s.xorsum := rfl

@[simp] theorem raiseEncoder_host (s : State) (e : EncError) : (s.raise (.encoder e)).host = s.host := rfl
@[simp] theorem raiseEncoder_encIn (s : State) (e : EncError) : (s.raise (.encoder e)).encIn = s.encIn := rfl
@[simp] theorem raiseEncoder_encOut (s : State) (e : EncError) :
    (s.raise (.encoder e)).encOut = ⟨e.code, false, Config.invalidFrame s.encIn⟩ := rfl
@[simp] theorem raiseEncoder_core (s : State) (e : EncError) : (s.raise (.encoder e)).core = s.core := rfl
@[simp] theorem raiseEncoder_valIn (s : State) (e : EncError) : (s.raise (.encoder e)).valIn = s.valIn := rfl
@[simp] theorem raiseEncoder_valOut (s : State) (e : EncError) : (s.raise (.encoder e)).valOut = s.valOut := rfl
@[simp] theorem raiseEncoder_opdec (s : State) (e : EncError) : (s.raise (.encoder e)).opdec = s.opdec := rfl
@[simp] theorem raiseEncoder_maskgen (s : State) (e : EncError) : (s.raise (.encoder e)).maskgen = s.maskgen := rfl
@[simp] theorem raiseEncoder_addrgen (s : State) (e : EncError) : (s.raise (.encoder e)).addrgen = s.addrgen := rfl
@[simp] theorem raiseEncoder_xorsum (s : State) (e : EncError) : (s.raise (.encoder e)).xorsum = s.xorsum := rfl

@[simp] theorem raiseValidator_host (s : State) (e : ValError) (g x : Byte) :
    (s.raise (.validator e g x)).host = s.host := rfl
@[simp] theorem raiseValidator_encIn (s : State) (e : ValError) (g x : Byte) :
    (s.raise (.validator e g x)).encIn = s.encIn := rfl
@[simp] theorem raiseValidator_encOut (s : State) (e : ValError) (g x : Byte) :
    (s.raise (.validator e g x)).encOut = s.encOut := rfl
@[simp] theorem raiseValidator_core (s : State) (e : ValError) (g x : Byte) :
    (s.raise (.validator e g x)).core = s.core := rfl
@[simp] theorem raiseValidator_valIn (s : State) (e : ValError) (g x : Byte) :
    (s.raise (.validator e g x)).valIn = s.valIn := rfl
@[simp] theorem raiseValidator_valOut (s : State) (e : ValError) (g x : Byte) :
    (s.raise (.validator e g x)).valOut = ⟨s.valOut.opOk, s.valOut.addrOk, s.valOut.csumOk, e.code, g, x⟩ := rfl
@[simp] theorem raiseValidator_opdec (s : State) (e : ValError) (g x : Byte) :
    (s.raise (.validator e g x)).opdec = s.opdec := rfl
@[simp] theorem raiseValidator_maskgen (s : State) (e : ValError) (g x : Byte) :
    (s.raise (.validator e g x)).maskgen = s.maskgen := rfl
@[simp] theorem raiseValidator_addrgen (s : State) (e : ValError) (g x : Byte) :
    (s.raise (.validator e g x)).addrgen = s.addrgen := rfl
@[simp] theorem raiseValidator_xorsum (s : State) (e : ValError) (g x : Byte) :
    (s.raise (.validator e g x)).xorsum = s.xorsum := rfl

@[simp] theorem hold_host (s : State) (f : Frame) : (s.hold f).host = ⟨s.host.pending, f⟩ := rfl
@[simp] theorem hold_encIn (s : State) (f : Frame) : (s.hold f).encIn = s.encIn := rfl
@[simp] theorem hold_encOut (s : State) (f : Frame) : (s.hold f).encOut = s.encOut := rfl
@[simp] theorem hold_core (s : State) (f : Frame) : (s.hold f).core = s.core := rfl
@[simp] theorem hold_valIn (s : State) (f : Frame) : (s.hold f).valIn = s.valIn := rfl
@[simp] theorem hold_valOut (s : State) (f : Frame) : (s.hold f).valOut = s.valOut := rfl
@[simp] theorem hold_opdec (s : State) (f : Frame) : (s.hold f).opdec = s.opdec := rfl
@[simp] theorem hold_maskgen (s : State) (f : Frame) : (s.hold f).maskgen = s.maskgen := rfl
@[simp] theorem hold_addrgen (s : State) (f : Frame) : (s.hold f).addrgen = s.addrgen := rfl
@[simp] theorem hold_xorsum (s : State) (f : Frame) : (s.hold f).xorsum = s.xorsum := rfl

@[simp] theorem returnFrame_host (s : State) (f : Frame) : (s.returnFrame f).host = s.host := rfl
@[simp] theorem returnFrame_encIn (s : State) (f : Frame) : (s.returnFrame f).encIn = s.encIn := rfl
@[simp] theorem returnFrame_encOut (s : State) (f : Frame) : (s.returnFrame f).encOut = ⟨0#3, true, f⟩ := rfl
@[simp] theorem returnFrame_core (s : State) (f : Frame) : (s.returnFrame f).core = s.core := rfl
@[simp] theorem returnFrame_valIn (s : State) (f : Frame) : (s.returnFrame f).valIn = s.valIn := rfl
@[simp] theorem returnFrame_valOut (s : State) (f : Frame) : (s.returnFrame f).valOut = s.valOut := rfl
@[simp] theorem returnFrame_opdec (s : State) (f : Frame) : (s.returnFrame f).opdec = s.opdec := rfl
@[simp] theorem returnFrame_maskgen (s : State) (f : Frame) : (s.returnFrame f).maskgen = s.maskgen := rfl
@[simp] theorem returnFrame_addrgen (s : State) (f : Frame) : (s.returnFrame f).addrgen = s.addrgen := rfl
@[simp] theorem returnFrame_xorsum (s : State) (f : Frame) : (s.returnFrame f).xorsum = s.xorsum := rfl

@[simp] theorem returnMatch_host (s : State) : (s.returnMatch).host = s.host := rfl
@[simp] theorem returnMatch_encIn (s : State) : (s.returnMatch).encIn = s.encIn := rfl
@[simp] theorem returnMatch_encOut (s : State) : (s.returnMatch).encOut = s.encOut := rfl
@[simp] theorem returnMatch_core (s : State) : (s.returnMatch).core = s.core := rfl
@[simp] theorem returnMatch_valIn (s : State) : (s.returnMatch).valIn = s.valIn := rfl
@[simp] theorem returnMatch_valOut (s : State) :
    (s.returnMatch).valOut = ⟨s.valOut.opOk, s.valOut.addrOk, s.valOut.csumOk, 0#2,
      Config.idleGot s.valIn.sent s.valIn.resp, Config.idleExpected s.valIn.sent s.valIn.resp⟩ := rfl
@[simp] theorem returnMatch_opdec (s : State) : (s.returnMatch).opdec = s.opdec := rfl
@[simp] theorem returnMatch_maskgen (s : State) : (s.returnMatch).maskgen = s.maskgen := rfl
@[simp] theorem returnMatch_addrgen (s : State) : (s.returnMatch).addrgen = s.addrgen := rfl
@[simp] theorem returnMatch_xorsum (s : State) : (s.returnMatch).xorsum = s.xorsum := rfl

end Sys2Proof.Machine
end

