-- ==== Sys2Proof/Laws/Ops.lean ====
section
/-! SUPPORT. What the two composed procedures can do, each said once. -/

namespace Sys2Proof.Machine

variable {p : EncPorts} {s : State}

theorem coreAddress_eq {a : Byte}
    (h : addrgenResult p.args.baseAddress p.args.offsetPresent p.args.cardOffset (opdecIsInit p.opcode) =
      .address a) : coreAddress p = a := by
  simp [coreAddress, AddrgenWires.addressOut, h]

/-- For a command other than Init the core's mask is MASKGEN's (R13). -/
theorem coreMask_eq (h : opdecIsInit p.opcode = false) : coreMask p = maskgenMask p.args.sel := by
  simp [coreMask, h]

/-- For Init the core gets the base address and a zero mask (R13, R56). -/
theorem core_init (h : p.opcode = 1#8) : coreAddress p = p.args.baseAddress ∧ coreMask p = 0#8 := by
  have hi : opdecIsInit p.opcode = true := by rw [h]; decide
  exact ⟨coreAddress_eq (by rw [hi, addrgenResult_base (.inl rfl)]), by simp [coreMask, hi]⟩

theorem encodeProcedure_illegal (h : opdecLegal p.opcode = false) :
    s.encodeProcedure p = (s.driveEncoder p).raise (.encoder .illegalOpcode) := by
  simp [State.encodeProcedure, encPriority, State.encCheckFails, h]

theorem encodeProcedure_init (h : p.opcode = 1#8) :
    s.encodeProcedure p = (s.driveEncoder p).returnFrame
      ⟨1#8, p.args.baseAddress, 0#8, 1#8 ^^^ p.args.baseAddress ^^^ 0#8⟩ := by
  have hl : opdecLegal p.opcode = true := by rw [h]; decide
  have hi : opdecIsInit p.opcode = true := by rw [h]; decide
  have ha := addrgenResult_base (b := p.args.baseAddress) (c := p.args.cardOffset)
    (p := p.args.offsetPresent) (n := true) (.inl rfl)
  obtain ⟨hc, hm⟩ := core_init h
  rw [h] at hl hi
  simp [State.encodeProcedure, encPriority, State.encCheckFails, hl, hi, ha, hc, hm, h]

theorem encodeProcedure_missing (hl : opdecLegal p.opcode = true) (hi : opdecIsInit p.opcode = false)
    (hs : p.args.selPresent = false) :
    s.encodeProcedure p = (s.driveEncoder p).raise (.encoder .missingRelaySelector) := by
  simp [State.encodeProcedure, encPriority, State.encCheckFails, hl, hi, hs]

theorem encodeProcedure_badRelay (hl : opdecLegal p.opcode = true) (hi : opdecIsInit p.opcode = false)
    (hs : p.args.selPresent = true) (hb : maskgenBad p.args.sel = true) :
    s.encodeProcedure p = (s.driveEncoder p).raise (.encoder .invalidRelayNumber) := by
  simp [State.encodeProcedure, encPriority, State.encCheckFails, hl, hi, hs, hb]

theorem encodeProcedure_addressFault {e : EncError} (hl : opdecLegal p.opcode = true)
    (hi : opdecIsInit p.opcode = false) (hs : p.args.selPresent = true)
    (hb : maskgenBad p.args.sel = false)
    (ha : addrgenResult p.args.baseAddress p.args.offsetPresent p.args.cardOffset false = .raised e) :
    s.encodeProcedure p = (s.driveEncoder p).raise (.encoder e) := by
  obtain rfl | rfl := addrgenResult_raised ha <;>
    simp [State.encodeProcedure, encPriority, State.encCheckFails, hl, hi, hs, hb, ha]

theorem encodeProcedure_frame {a : Byte} (hl : opdecLegal p.opcode = true)
    (hi : opdecIsInit p.opcode = false) (hs : p.args.selPresent = true)
    (hb : maskgenBad p.args.sel = false)
    (ha : addrgenResult p.args.baseAddress p.args.offsetPresent p.args.cardOffset false = .address a) :
    s.encodeProcedure p = (s.driveEncoder p).returnFrame
      ⟨p.opcode, a, maskgenMask p.args.sel, p.opcode ^^^ a ^^^ maskgenMask p.args.sel⟩ := by
  have hc : coreAddress p = a := coreAddress_eq (by rw [hi, ha])
  simp [State.encodeProcedure, encPriority, State.encCheckFails, hl, hi, hs, hb, ha, hc,
    coreMask_eq hi]

/-- The six ways an encode transaction ends (R55), by what its inputs say. -/
theorem encodeProcedure_cases (p : EncPorts) :
    opdecLegal p.opcode = false ∨ p.opcode = 1#8 ∨
    (opdecLegal p.opcode = true ∧ opdecIsInit p.opcode = false ∧
      (p.args.selPresent = false ∨
        (p.args.selPresent = true ∧
          (maskgenBad p.args.sel = true ∨
            (maskgenBad p.args.sel = false ∧
              ((∃ e, addrgenResult p.args.baseAddress p.args.offsetPresent p.args.cardOffset false =
                  .raised e) ∨
                ∃ a, addrgenResult p.args.baseAddress p.args.offsetPresent p.args.cardOffset false =
                  .address a)))))) := by
  by_cases hi : p.opcode = 1#8
  · exact .inr (.inl hi)
  have hi' : opdecIsInit p.opcode = false := by rw [← Bool.not_eq_true, opdecIsInit_iff]; exact hi
  cases opdecLegal p.opcode <;> cases p.args.selPresent <;> cases maskgenBad p.args.sel <;>
    cases addrgenResult p.args.baseAddress p.args.offsetPresent p.args.cardOffset false <;> simp [hi, hi']

/-- An encode transaction drives every unit from its ports, whatever its outcome (R79): beside that it sets the
encoder's outputs only. -/
theorem encodeProcedure_eq (p : EncPorts) (s : State) :
    s.encodeProcedure p = { s.driveEncoder p with encOut := (s.encodeProcedure p).encOut } := by
  cases h : encPriority.find? (s.driveEncoder p).encCheckFails <;>
    simp only [State.encodeProcedure, h, State.raise, State.returnFrame]

/-- The encoder's outputs are a function of its inputs: they are the same from every state (R2, R10). -/
theorem encodeProcedure_encOut (p : EncPorts) (s u : State) :
    (s.encodeProcedure p).encOut = (u.encodeProcedure p).encOut := by
  have h : (s.driveEncoder p).encCheckFails = (u.driveEncoder p).encCheckFails := by
    funext e
    cases e <;> simp [State.encCheckFails]
  cases hf : encPriority.find? (u.driveEncoder p).encCheckFails <;> simp [State.encodeProcedure, h, hf]

@[simp] theorem encodeProcedure_host (p : EncPorts) (s : State) :
    (s.encodeProcedure p).host = (s.driveEncoder p).host := by rw [encodeProcedure_eq]
@[simp] theorem encodeProcedure_valIn (p : EncPorts) (s : State) :
    (s.encodeProcedure p).valIn = (s.driveEncoder p).valIn := by rw [encodeProcedure_eq]
@[simp] theorem encodeProcedure_valOut (p : EncPorts) (s : State) :
    (s.encodeProcedure p).valOut = (s.driveEncoder p).valOut := by rw [encodeProcedure_eq]
@[simp] theorem encodeProcedure_encIn (p : EncPorts) (s : State) :
    (s.encodeProcedure p).encIn = (s.driveEncoder p).encIn := by rw [encodeProcedure_eq]
@[simp] theorem encodeProcedure_opdec (p : EncPorts) (s : State) :
    (s.encodeProcedure p).opdec = (s.driveEncoder p).opdec := by rw [encodeProcedure_eq]
@[simp] theorem encodeProcedure_maskgen (p : EncPorts) (s : State) :
    (s.encodeProcedure p).maskgen = (s.driveEncoder p).maskgen := by rw [encodeProcedure_eq]
@[simp] theorem encodeProcedure_addrgen (p : EncPorts) (s : State) :
    (s.encodeProcedure p).addrgen = (s.driveEncoder p).addrgen := by rw [encodeProcedure_eq]
@[simp] theorem encodeProcedure_core (p : EncPorts) (s : State) :
    (s.encodeProcedure p).core = (s.driveEncoder p).core := by rw [encodeProcedure_eq]
@[simp] theorem encodeProcedure_xorsum (p : EncPorts) (s : State) :
    (s.encodeProcedure p).xorsum = (s.driveEncoder p).xorsum := by rw [encodeProcedure_eq]

/-- A frame that the encoder returns is the core's (R55). -/
theorem encodeProcedure_frame_eq_core (h : (s.encodeProcedure p).encOut.frameValid = true) :
    (s.encodeProcedure p).encOut = ⟨0#3, true, (s.driveEncoder p).core.frame⟩ := by
  cases hf : encPriority.find? (s.driveEncoder p).encCheckFails <;> simp [State.encodeProcedure, hf] at h ⊢

/-- VALIDATE changes the validator's ports and nothing else (R97). -/
theorem validateProcedure_eq (sent resp : Frame) (s : State) :
    s.validateProcedure sent resp =
      { s with valIn := ⟨sent, resp⟩, valOut := (s.validateProcedure sent resp).valOut } := by
  simp only [State.validateProcedure]
  repeat' split
  all_goals rfl

/-- The validator's outputs, by the first failing stage (R74). -/
theorem validateProcedure_valOut (sent resp : Frame) (s : State) :
    (s.validateProcedure sent resp).valOut =
      if opOk sent resp = false then
        ⟨false, addrOk sent resp, csumOk resp, 1#2, resp.opcode, expectedOpcode sent⟩
      else if addrOk sent resp = false then
        ⟨true, false, csumOk resp, 2#2, resp.address, sent.address⟩
      else if csumOk resp = false then
        ⟨true, true, false, 3#2, resp.checksum, expectedChecksum resp⟩
      else ⟨true, true, true, 0#2, Config.idleGot sent resp, Config.idleExpected sent resp⟩ := by
  cases h1 : opOk sent resp <;> cases h2 : addrOk sent resp <;> cases h3 : csumOk resp <;>
    simp [State.validateProcedure, h1, h2, h3, ValError.code]

end Sys2Proof.Machine
end

