-- ==== Sys2Proof/Laws/Exec.lean ====
section
/-! SUPPORT. What `exec` comes to, by kind of instruction. -/

namespace Sys2Proof.Machine

/-- An encode instruction runs R55 on the ports it stands for. -/
theorem exec_encode {i : Instr} {p : EncPorts} (h : encodePorts i = some p) (s : State) :
    exec i s = .next (s.encodeProcedure p) := by
  cases i <;> simp [encodePorts] at h <;> subst h <;> rfl

/-- The opcode of an encode instruction is legal (R50). -/
theorem opdecLegal_encodePorts {i : Instr} {p : EncPorts} (h : encodePorts i = some p) :
    opdecLegal p.opcode = true := by
  cases i <;> simp [encodePorts] at h <;> subst h <;> rfl

/-- An instruction of the validator's side runs R70 on a response and, as `sent`, its own operand or the frame the
host holds. -/
theorem exec_validator {i : Instr} (h : validatorSide i = true) :
    ∃ (sent : Frame → Frame) (resp : Frame),
      ∀ s : State, exec i s = .next (s.validateProcedure (sent s.host.held) resp) := by
  cases i <;> simp [validatorSide] at h
  · exact ⟨fun _ => _, _, fun _ => rfl⟩
  all_goals exact ⟨id, _, fun _ => rfl⟩

/-- What decoding a drive of the encoder's ports can answer (R31, R37). -/
theorem decodePorts_cases (p : EncPorts) :
    (∃ i, decodePorts p = .ok i ∧ encodePorts i = some p) ∨ decodePorts p = .error (.undefinedOpcode p) := by
  obtain ⟨o, a⟩ := p
  by_cases h1 : o = 1#8
  · exact .inl ⟨.encInit a, by simp [decodePorts, h1], by simp [encodePorts, h1]⟩
  by_cases h6 : o = 6#8
  · exact .inl ⟨.encSet a, by simp [decodePorts, h6], by simp [encodePorts, h6]⟩
  by_cases h7 : o = 7#8
  · exact .inl ⟨.encReset a, by simp [decodePorts, h7], by simp [encodePorts, h7]⟩
  by_cases h8 : o = 8#8
  · exact .inl ⟨.encToggle a, by simp [decodePorts, h8], by simp [encodePorts, h8]⟩
  exact .inr (by simp [decodePorts, h1, h6, h7, h8])

/-- A drive of the encoder's ports runs R55 on them, whatever they carry (R37, R66). -/
theorem step_encode {s : State} {p : EncPorts} {rest : List Request} (h : s.host.pending = .encode p :: rest) :
    step s = .next (({ s with host := ⟨rest, s.host.held⟩ } : State).encodeProcedure p) := by
  rcases decodePorts_cases p with ⟨i, hd, hi⟩ | hd
  · simp [step, State.fetch, h, decodeRequest, hd, exec_encode hi]
  · simp [step, State.fetch, h, decodeRequest, hd, onDecodeError]

/-- Every instruction answers a next state (R66, R78: the units are total). -/
theorem exec_next (i : Instr) (s : State) : ∃ t, exec i s = .next t := by
  cases i <;> exact ⟨_, rfl⟩

end Sys2Proof.Machine
end

