-- ==== Sys2Proof/Laws/PerInstr.lean ====
section
/-! SUPPORT. Statements about each instruction as syntax. -/

namespace Sys2Proof.Laws.EncodedLength

/-- The bytes of an instruction's word: a row of format INTERNAL has none, a CORE_INPUT has 3, a frame
`FRAME_LEN`, a VALIDATOR_INPUT two frames (30_encoding.md section 5, R30). -/
def wordLength (i : Instr) : Option Nat :=
  match i with
  | .frameRaw _ _ _ => some 3
  | .validate _ _ => some (2 * Config.frameLen)
  | .opdec _ => none
  | .maskgen _ => none
  | .addrgen _ _ _ _ => none
  | .xorsum _ _ _ => none
  | .encInit _ => some Config.frameLen
  | .encSet _ => some Config.frameLen
  | .encReset _ => some Config.frameLen
  | .encToggle _ => some Config.frameLen
  | .ackInit _ _ _ => some Config.frameLen
  | .ackSet _ _ _ => some Config.frameLen
  | .ackReset _ _ _ => some Config.frameLen
  | .ackToggle _ _ _ => some Config.frameLen

/-- The word of `i` has the length of its format, and is missing exactly for an internal row. -/
def Statement (i : Instr) : Prop :=
  (encodeBytes i).map List.length = wordLength i ∧ ((encodeBytes i).isNone = Machine.internalRow i)

theorem encInit (o : EncArgs) : Statement (.encInit o) := ⟨rfl, rfl⟩
theorem encSet (o : EncArgs) : Statement (.encSet o) := ⟨rfl, rfl⟩
theorem encReset (o : EncArgs) : Statement (.encReset o) := ⟨rfl, rfl⟩
theorem encToggle (o : EncArgs) : Statement (.encToggle o) := ⟨rfl, rfl⟩
theorem frameRaw (o a m : Byte) : Statement (.frameRaw o a m) := ⟨rfl, rfl⟩
theorem validate (sent resp : Frame) : Statement (.validate sent resp) := ⟨rfl, rfl⟩
theorem ackInit (a d c : Byte) : Statement (.ackInit a d c) := ⟨rfl, rfl⟩
theorem ackSet (a d c : Byte) : Statement (.ackSet a d c) := ⟨rfl, rfl⟩
theorem ackReset (a d c : Byte) : Statement (.ackReset a d c) := ⟨rfl, rfl⟩
theorem ackToggle (a d c : Byte) : Statement (.ackToggle a d c) := ⟨rfl, rfl⟩
theorem opdec (o : Byte) : Statement (.opdec o) := ⟨rfl, rfl⟩
theorem maskgen (sel : List Byte) : Statement (.maskgen sel) := ⟨rfl, rfl⟩
theorem addrgen (b : Byte) (p : Bool) (c : Byte) (n : Bool) : Statement (.addrgen b p c n) := ⟨rfl, rfl⟩
theorem xorsum (a b c : Byte) : Statement (.xorsum a b c) := ⟨rfl, rfl⟩

end Sys2Proof.Laws.EncodedLength
end

