-- ==== Sys2Proof/Tests/Slice0.lean ====
section
/-! SUPPORT. The model's own tests: expected values come from 95_test_vectors.md, 40_encode.md and 41_validate.md,
or are worked out by hand from a rule; and for each statement with hypotheses a witness that meets them. -/

namespace Sys2Proof.Tests

open Sys2Proof.Machine

/-! ### WellFormed refuses each kind of ill-formed operand -/

/-- Legal operands with the selector `{1,3}`, base 1 and offset 1. -/
def good : EncArgs := ⟨1#8, true, 1#8, true, [1#8, 3#8]⟩

theorem test_wf_accepts : (Instr.encSet good).wellFormed = true := by decide
theorem test_wf_missing_selector : (Instr.encSet { good with selPresent := false }).wellFormed = false := by
  decide
theorem test_wf_relay_zero : (Instr.encReset { good with sel := [0#8] }).wellFormed = false := by decide
theorem test_wf_relay_nine : (Instr.encToggle { good with sel := [1#8, 9#8] }).wellFormed = false := by decide
theorem test_wf_offset_zero : (Instr.encSet { good with cardOffset := 0#8 }).wellFormed = false := by decide
theorem test_wf_overflow :
    (Instr.encSet { good with baseAddress := 255#8, cardOffset := 2#8 }).wellFormed = false := by decide
theorem test_wf_address_255 :
    (Instr.encSet { good with baseAddress := 200#8, cardOffset := 56#8 }).wellFormed = true := by decide
theorem test_wf_maskgen_bad : (Instr.maskgen [16#8]).wellFormed = false := by decide
theorem test_wf_addrgen_offset_zero : (Instr.addrgen 9#8 true 0#8 false).wellFormed = false := by decide
theorem test_wf_addrgen_init : (Instr.addrgen 9#8 true 0#8 true).wellFormed = true := by decide

/-! ### Decoding: words written bit by bit from the table's patterns (checksum data address opcode) -/

theorem test_decode_encInit : decodeTableWord 32 0b00000000000000000000000100000001 =
    some (.encInit ⟨1#8, false, 0#8, true, []⟩) := by decide
theorem test_decode_encSet : decodeTableWord 32 0b00000010000001010000000100000110 =
    some (.encSet ⟨1#8, false, 0#8, true, [1#8, 3#8]⟩) := by decide
theorem test_decode_encReset : decodeTableWord 32 0b11110010111111110000101000000111 =
    some (.encReset ⟨10#8, false, 0#8, true, [1#8, 2#8, 3#8, 4#8, 5#8, 6#8, 7#8, 8#8]⟩) := by decide
theorem test_decode_encToggle : decodeTableWord 32 0b10001010100000010000001100001000 =
    some (.encToggle ⟨3#8, false, 0#8, true, [1#8, 8#8]⟩) := by decide
theorem test_decode_frameRaw : decodeTableWord 24 0b010101100011010000010010 =
    some (.frameRaw 0x12#8 0x34#8 0x56#8) := by decide
theorem test_decode_validate :
    decodeTableWord 64 0b1111110100000101000000011111100100000010000001010000000100000110 =
      some (.validate ⟨6#8, 1#8, 5#8, 2#8⟩ ⟨249#8, 1#8, 5#8, 253#8⟩) := by decide
theorem test_decode_ackInit : decodeTableWord 32 0b11110100000010110000000111111110 =
    some (.ackInit 1#8 11#8 244#8) := by decide
theorem test_decode_ackSet : decodeTableWord 32 0b11111101000001010000000111111001 =
    some (.ackSet 1#8 5#8 253#8) := by decide
theorem test_decode_ackReset : decodeTableWord 32 0b11111001000000000000000111111000 =
    some (.ackReset 1#8 0#8 249#8) := by decide
theorem test_decode_ackToggle : decodeTableWord 32 0b00001111111111110000011111110111 =
    some (.ackToggle 7#8 255#8 15#8) := by decide
theorem test_decode_undefined : decodeTableWord 32 0b00000000000000000000000100000101 = none := by decide
theorem test_encode_set : encodeBytes (.encSet { good with cardOffset := 2#8 }) =
    some [0x06#8, 0x02#8, 0x05#8, 0x01#8] := by decide
theorem test_pack : (⟨6#8, 1#8, 5#8, 2#8⟩ : Frame).pack = 0x02050106#32 := by decide

/-! ### The front end (95_test_vectors.md 2.1 to 2.4) -/

theorem test_opdec_254 : opdecLegal 254#8 = false := by decide
theorem test_opdec_init : opdecLegal 1#8 = true ∧ opdecIsInit 1#8 = true := by decide
theorem test_maskgen_order : maskgenMask [1#8, 1#8, 3#8, 3#8, 1#8] = 0x05#8 := by decide
theorem test_maskgen_sixteen : maskgenBad [16#8] = true := by decide
theorem test_addrgen_sum_256 : addrgenResult 2#8 true 255#8 false = .raised .addressOverflow := by decide
theorem test_addrgen_no_wrap : addrgenResult 0#8 true 0#8 false = .raised .invalidCardOffset := by decide
theorem test_xorsum : (State.reset.driveXorsum 6#8 1#8 5#8).xorsum.sum = 2#8 := by decide
theorem test_frameRaw_not_canonical :
    (State.reset.driveCore 1#8 1#8 5#8).core = ⟨1#8, 1#8, 5#8, ⟨1#8, 1#8, 5#8, 5#8⟩, false⟩ := by decide

/-! ### The step, from reset with one word or one drive presented -/

/-- The encoder's status, valid bit and (where valid) frame after one step from reset with `r` presented. -/
def encodedBy (r : Request) : Option (BitVec 3 × Option Frame) :=
  match step { State.reset with host := ⟨[r], ⟨0#8, 0#8, 0#8, 0#8⟩⟩ } with
  | .next t => some (t.encOut.status, if t.encOut.frameValid then some t.encOut.frame else none)
  | .fault _ => none
  | .refused _ => none

/-- The validator's status and (where it has a meaning) payload after one step from reset, with the host holding
`sent`, and `bs` presented. -/
def judged (sent : Frame) (bs : List Byte) : Option (BitVec 2 × Option (Byte × Byte)) :=
  match step { State.reset with host := ⟨[.word bs], sent⟩ } with
  | .next t => some (t.valOut.status, if t.valOut.status = 0#2 then none else some (t.valOut.got, t.valOut.expected))
  | .fault _ => none
  | .refused _ => none

/-- 95_test_vectors.md 2.5: Init ignores offset 0 and selector `{9}`. -/
theorem test_init_ignores : encodedBy (.encode ⟨1#8, ⟨9#8, true, 0#8, true, [9#8]⟩⟩) =
    some (0#3, some ⟨1#8, 9#8, 0#8, 8#8⟩) := by decide
theorem test_init_255 : encodedBy (.word [0x01#8, 0xFF#8, 0x00#8, 0x00#8]) =
    some (0#3, some ⟨1#8, 255#8, 0#8, 254#8⟩) := by decide
/-- 95_test_vectors.md 2.6. -/
theorem test_set_card_two : encodedBy (.encode ⟨6#8, ⟨1#8, true, 2#8, true, [3#8, 1#8]⟩⟩) =
    some (0#3, some ⟨6#8, 2#8, 5#8, 1#8⟩) := by decide
theorem test_set_selector_before_address : encodedBy (.encode ⟨6#8, ⟨255#8, true, 2#8, true, [9#8]⟩⟩) =
    some (1#3, none) := by decide
/-- 95_test_vectors.md 2.7. -/
theorem test_reset_card_three :
    encodedBy (.encode ⟨7#8, ⟨10#8, true, 3#8, true, [2#8, 4#8, 6#8, 8#8]⟩⟩) =
      some (0#3, some ⟨7#8, 12#8, 170#8, 161#8⟩) := by decide
theorem test_reset_missing : encodedBy (.encode ⟨7#8, ⟨1#8, true, 1#8, false, []⟩⟩) = some (2#3, none) := by
  decide
/-- 95_test_vectors.md 2.8. -/
theorem test_toggle_255 : encodedBy (.encode ⟨8#8, ⟨200#8, true, 56#8, true, [5#8]⟩⟩) =
    some (0#3, some ⟨8#8, 255#8, 16#8, 231#8⟩) := by decide
theorem test_toggle_overflow : encodedBy (.encode ⟨8#8, ⟨200#8, true, 57#8, true, [5#8]⟩⟩) =
    some (5#3, none) := by decide
/-- 95_test_vectors.md 2.9. -/
theorem test_illegal_first : encodedBy (.encode ⟨3#8, ⟨255#8, true, 0#8, false, []⟩⟩) = some (3#3, none) := by
  decide
theorem test_illegal_word : encodedBy (.word [9#8, 1#8, 1#8, 9#8]) = some (3#3, none) := by decide
/-- 95_test_vectors.md 2.10. -/
theorem test_validate_address_before_checksum :
    judged ⟨0#8, 0#8, 0#8, 0#8⟩ [6#8, 1#8, 5#8, 2#8, 249#8, 2#8, 5#8, 0#8] =
      some (2#2, some (2#8, 1#8)) := by decide
theorem test_validate_skip : judged ⟨0#8, 0#8, 0#8, 0#8⟩ [8#8, 0#8, 255#8, 247#8, 247#8, 7#8, 255#8, 15#8] =
    some (0#2, none) := by decide
theorem test_ackInit : judged ⟨1#8, 1#8, 0#8, 0#8⟩ [254#8, 1#8, 11#8, 245#8] = some (3#2, some (245#8, 244#8)) := by
  decide
theorem test_ackSet : judged ⟨6#8, 1#8, 5#8, 2#8⟩ [249#8, 1#8, 170#8, 82#8] = some (0#2, none) := by decide
theorem test_ackReset : judged ⟨7#8, 1#8, 5#8, 3#8⟩ [248#8, 1#8, 0#8, 249#8] = some (0#2, none) := by decide
theorem test_ackToggle : judged ⟨8#8, 0#8, 255#8, 247#8⟩ [247#8, 7#8, 255#8, 0#8] =
    some (3#2, some (0#8, 15#8)) := by decide
/-- The deliberately false variant of 95_test_vectors.md: sent address 0, another card answers. -/
theorem test_address_zero_skips : judged ⟨1#8, 0#8, 0#8, 1#8⟩ [254#8, 1#8, 11#8, 244#8] = some (0#2, none) := by
  decide

/-- P2 of 95_test_vectors.md: the second card's answer comes from the wrong card, and the batch stops there. -/
theorem test_session_P2 :
    (sessionBatch .set 1#8 [1#8, 2#8, 3#8] [1#8, 3#8]
      [some ⟨249#8, 1#8, 5#8, 253#8⟩, some ⟨249#8, 1#8, 5#8, 253#8⟩] State.reset).error =
        some (.validate 2#2 1#8 2#8) := by decide
/-- R92, log 25: the read of the second card fails; no VALIDATE takes place and the host holds the second frame. -/
theorem test_session_failed_read :
    (sessionCards .set 1#8 [1#8, 3#8] [1#8, 2#8] [some ⟨249#8, 1#8, 5#8, 253#8⟩, none] State.reset).state.host.held =
        ⟨6#8, 2#8, 5#8, 1#8⟩ ∧
      (sessionCards .set 1#8 [1#8, 3#8] [1#8, 2#8] [some ⟨249#8, 1#8, 5#8, 253#8⟩, none] State.reset).state.valIn.sent =
        ⟨6#8, 1#8, 5#8, 2#8⟩ := by decide
theorem test_session_init_sentinel :
    (sessionInit 1#8 10 [254#8, 1#8, 9#8, 7#8] State.reset).2 = (true, [7#8]) := by decide

/-! ### Witnesses: states and operands that meet a statement's hypotheses -/

theorem test_witness_StepRunsTheDecodedTransaction :
    ({ State.reset with host := ⟨[.word [6#8, 1#8, 5#8, 2#8]], default⟩ } : State).host.pending =
        [.word [6#8, 1#8, 5#8, 2#8]] ∧
      decodeRequest (.word [6#8, 1#8, 5#8, 2#8]) = .ok (.encSet ⟨1#8, false, 0#8, true, [1#8, 3#8]⟩) :=
  ⟨rfl, rfl⟩

theorem test_witness_StepOnAnUndefinedOpcodeReportsIllegalOpcode :
    (decodeRequest (.encode ⟨0#8, good⟩) = .error (.undefinedOpcode ⟨0#8, good⟩) ∧
      decodeRequest (.encode ⟨9#8, good⟩) = .error (.undefinedOpcode ⟨9#8, good⟩)) ∧
    decodeRequest (.word [255#8, 1#8, 1#8, 0#8]) =
      .error (.undefinedOpcode ⟨255#8, ⟨1#8, false, 0#8, true, [1#8]⟩⟩) :=
  ⟨⟨rfl, rfl⟩, rfl⟩

theorem test_witness_StepRefusesAWordNoUnitTakes :
    ([] : List Byte).length ≠ 3 ∧ ([1#8, 2#8] : List Byte).length ≠ 3 ∧
      ([1#8, 2#8] : List Byte).length ≠ 4 ∧ ([1#8, 2#8] : List Byte).length ≠ 8 ∧
      step { State.reset with host := ⟨[.word [1#8, 2#8]], default⟩ } = .refused (.unpresentableWord 2) :=
  ⟨by decide, by decide, by decide, by decide, rfl⟩

theorem test_witness_StepWithNothingPresentedChangesNothing : State.reset.host.pending = [] := rfl

theorem test_witness_NothingPresentedDecodesToAnInternalFunction :
    decodeRequest (.word [1#8, 2#8, 3#8]) = .ok (.frameRaw 1#8 2#8 3#8) := rfl

theorem test_witness_WordsOfInstructionsRoundTrip :
    encodeBytes (.encSet good) = some [6#8, 1#8, 5#8, 2#8] ∧
    decodeBytes [1#8, 255#8, 0#8, 254#8] = .ok (.encInit ⟨255#8, false, 0#8, true, []⟩) ∧
    encodePorts (.encInit ⟨255#8, false, 0#8, true, []⟩) = some ⟨1#8, ⟨255#8, false, 0#8, true, []⟩⟩ ∧
    [1#8, 255#8, 0#8, 254#8] = (⟨1#8, 255#8, 0#8, 254#8⟩ : Frame).toBytes ∧
    frameCanonical ⟨1#8, 255#8, 0#8, 254#8⟩ = true := by decide

theorem test_witness_PortsOfEncodeOperationsRoundTrip :
    encodePorts (.encToggle good) = some ⟨8#8, good⟩ ∧ decodePorts ⟨8#8, good⟩ = .ok (.encToggle good) ∧
      ¬ commandOpcode 9#8 := by
  refine ⟨rfl, rfl, by simp [commandOpcode]⟩

/-- A state other than reset in which every output is what its rule gives: two transactions are waiting, and a
valid frame `[6,1,5,2]` is on the encoder's port and on the core. -/
def busy : State :=
  { State.reset with
    host := ⟨[.word [1#8, 2#8, 3#8], .encode ⟨6#8, good⟩], ⟨6#8, 1#8, 5#8, 2#8⟩⟩
    encIn := ⟨6#8, good⟩
    encOut := ⟨0#3, true, ⟨6#8, 1#8, 5#8, 2#8⟩⟩
    core := ⟨6#8, 1#8, 5#8, ⟨6#8, 1#8, 5#8, 2#8⟩, true⟩ }

theorem busy_consistent : busy.consistent := by
  refine ⟨.inr ⟨?_, rfl, rfl, rfl, rfl, ?_, rfl⟩, ⟨rfl, ?_⟩, ?_, ?_, ?_, ?_, ?_⟩
  · intro e
    cases e <;> simp [EncError.applies, commandOpcode, maskOpcode, busy, good]
  · show ∀ k : Nat, k < 8 → ((5#8).getLsbD k = true ↔ (6#8 : Byte) ≠ 1#8 ∧ BitVec.ofNat 8 (k + 1) ∈ good.sel)
    decide
  · simp [busy, maskOpcode]
  · simp [validatorAnswers, busy, State.reset]
  · simp [opdecAnswers, commandOpcode, busy, State.reset]
  · simp [maskgenAnswers, busy, State.reset]
  · simp [addrgenAnswers, busy, State.reset]
  · intro k _
    simp [busy, State.reset]

theorem test_witness_StepKeepsEveryOutputAFunctionOfItsInputs :
    busy.consistent ∧ ∃ t, step busy = .next t := ⟨busy_consistent, _, rfl⟩

theorem test_witness_WhatMayBeSentIsCanonical :
    busy.consistent ∧ busy.maySendFrame ∧ busy.maySendRaw := ⟨busy_consistent, rfl, rfl⟩

theorem test_witness_SetResetToggleAnswerTheirFrame :
    good.wellFormed = true ∧ (⟨2#8, true, 254#8, true, [8#8]⟩ : EncArgs).wellFormed = true ∧
      (⟨255#8, false, 0#8, true, []⟩ : EncArgs).wellFormed = true := by decide

theorem test_witness_EncodeReportsTheFirstFailingCheck :
    ({ State.reset with host := ⟨[.encode ⟨6#8, good⟩], default⟩ } : State).host.pending =
      .encode ⟨6#8, good⟩ :: [] := rfl

/-- The encoder's status after an encode instruction at reset. -/
def statusAfter (i : Instr) : Option (BitVec 3) :=
  match exec i State.reset with
  | .next t => some t.encOut.status
  | .fault _ => none
  | .refused _ => none

theorem test_witness_FrameValidExactlyWhenStatusIsOk :
    encodePorts (.encSet good) = some ⟨6#8, good⟩ ∧
    (∃ t, exec (.encSet good) State.reset = .next t ∧ t.encOut.frameValid = true) ∧
    (∃ t, exec (.encSet { good with selPresent := false }) State.reset = .next t ∧
      t.encOut.frameValid = false) :=
  ⟨rfl, ⟨_, rfl, by decide⟩, ⟨_, rfl, by decide⟩⟩

theorem test_witness_EncodeIsTheCompositionOfItsUnits :
    encodePorts (.encToggle good) = some ⟨8#8, good⟩ ∧ encodePorts (.encInit good) = some ⟨1#8, good⟩ ∧
    (∃ t, exec (.encToggle good) State.reset = .next t ∧ t.encOut.frameValid = true) ∧
    (∃ t, exec (.encInit good) State.reset = .next t ∧ t.encOut.frameValid = true) :=
  ⟨rfl, rfl, ⟨_, rfl, by decide⟩, ⟨_, rfl, by decide⟩⟩

theorem test_witness_FourthByteIsTheXorOfTheFirstThree :
    encodePorts (.encReset good) = some ⟨7#8, good⟩ ∧
    (∃ t, exec (.encReset good) State.reset = .next t ∧ t.encOut.frameValid = true) :=
  ⟨rfl, ⟨_, rfl, by decide⟩⟩

theorem test_witness_EncodeLeavesEverythingElseUnchanged :
    statusAfter (.encSet { good with sel := [9#8] }) = some 1#3 ∧
    statusAfter (.encSet { good with selPresent := false }) = some 2#3 ∧
    statusAfter (.encSet { good with cardOffset := 0#8 }) = some 4#3 ∧
    statusAfter (.encInit good) = some 0#3 ∧
    ({ busy with host := ⟨[.encode ⟨0#8, good⟩], default⟩ } : State).host.pending = .encode ⟨0#8, good⟩ :: [] := by
  decide

/-- R79: a transaction that ends with IllegalOpcode leaves no wire of the encoder as an earlier one had it. -/
theorem test_illegal_drives_all_units :
    (busy.encodeProcedure ⟨0#8, { good with baseAddress := 7#8, sel := [2#8] }⟩).maskgen = ⟨[2#8], 2#8, false⟩ ∧
    (busy.encodeProcedure ⟨0#8, { good with baseAddress := 7#8, sel := [2#8] }⟩).addrgen =
      ⟨7#8, true, 1#8, false, .address 7#8⟩ ∧
    (busy.encodeProcedure ⟨0#8, { good with baseAddress := 7#8, sel := [2#8] }⟩).core =
      ⟨0#8, 7#8, 2#8, ⟨0#8, 7#8, 2#8, 5#8⟩, false⟩ := by decide

/-- R10, R19: the verdict of an ACK word comes from the frame the host holds, whatever an earlier VALIDATE left on
the validator's ports. -/
theorem test_ack_ignores_earlier_validate :
    ((busy.validateProcedure ⟨7#8, 9#8, 0#8, 0#8⟩ ⟨0#8, 0#8, 0#8, 0#8⟩).respond ⟨249#8, 1#8, 5#8, 253#8⟩).valOut.status =
      0#2 := by decide

theorem test_witness_AResponseIsJudgedAgainstTheFrameTheHostHolds :
    ({ busy with host := ⟨[.hold ⟨8#8, 0#8, 1#8, 9#8⟩, .word [247#8, 0#8, 0#8, 247#8]], default⟩ } :
      State).host.pending = .hold ⟨8#8, 0#8, 1#8, 9#8⟩ :: .word [247#8, 0#8, 0#8, 247#8] :: [] ∧
    (commandOpcode (~~~ 254#8) ∧ commandOpcode (~~~ 249#8) ∧ commandOpcode (~~~ 248#8) ∧ commandOpcode (~~~ 247#8)) :=
  ⟨rfl, by simp [commandOpcode]⟩

theorem test_witness_NoTransactionObservesAnEarlierOne :
    ({ State.reset with host := ⟨[], busy.host.held⟩ } : State).host.held = busy.host.held ∧
      ({ State.reset with host := ⟨[], busy.host.held⟩ } : State).core ≠ busy.core := by decide

theorem test_witness_MaskHasOneBitPerRelayAndUnionIsOr :
    (∀ n ∈ [8#8, 1#8, 8#8], 1 ≤ BitVec.toNat n ∧ BitVec.toNat n ≤ 8) ∧
    (∀ n ∈ [2#8], 1 ≤ BitVec.toNat (n : Byte) ∧ BitVec.toNat n ≤ 8) ∧
    (∀ n : Byte, n ∈ [1#8, 2#8, 8#8] ↔ n ∈ [8#8, 1#8, 8#8] ∨ n ∈ [2#8]) := by
  refine ⟨by decide, by decide, fun n => ?_⟩
  simp
  tauto

theorem test_witness_OrderAndRepetitionOfTheSelectorDoNotMatter :
    encodePorts (.encSet good) = some ⟨6#8, good⟩ ∧
    encodePorts (.encSet { good with sel := [3#8, 1#8, 3#8] }) =
      some ⟨6#8, { good with sel := [3#8, 1#8, 3#8] }⟩ ∧
    (∀ n : Byte, n ∈ [3#8, 1#8, 3#8] ↔ n ∈ good.sel) ∧
    (∃ t, exec (.encSet good) State.reset = .next t ∧ t.encOut.frameValid = true) := by
  refine ⟨rfl, rfl, fun n => ?_, _, rfl, by decide⟩
  simp [good]
  tauto

theorem test_witness_EncodedAddressIsBasePlusOffsetMinusOne :
    (1 ≤ (56#8 : Byte).toNat ∧ (200#8 : Byte).toNat + (56#8 : Byte).toNat - 1 = 255) ∧
    (1 ≤ (1#8 : Byte).toNat ∧ (255#8 : Byte).toNat + (1#8 : Byte).toNat - 1 = 255) ∧
    (∀ n ∈ good.sel, 1 ≤ BitVec.toNat n ∧ BitVec.toNat n ≤ 8) ∧
    encodePorts (.encReset { good with baseAddress := 200#8, cardOffset := 56#8 }) =
      some ⟨7#8, { good with baseAddress := 200#8, cardOffset := 56#8 }⟩ := by decide

theorem test_witness_RelayZeroOrNineFailsWithInvalidRelayNumber :
    (0#8 ∈ ({ good with sel := [1#8, 0#8] } : EncArgs).sel) ∧
    (9#8 ∈ ({ good with sel := [9#8, 1#8] } : EncArgs).sel) ∧ good.selPresent = true := by decide

theorem test_witness_BadOffsetAndOverflowAreReported :
    encodePorts (.encToggle { good with cardOffset := 0#8 }) = some ⟨8#8, { good with cardOffset := 0#8 }⟩ ∧
    (∀ n ∈ good.sel, 1 ≤ BitVec.toNat n ∧ BitVec.toNat n ≤ 8) ∧
    255 < (200#8 : Byte).toNat + (57#8 : Byte).toNat - 1 ∧
    ¬ 255 < (255#8 : Byte).toNat + (0#8 : Byte).toNat - 1 := by decide

theorem test_witness_CanonicalFramesAreExactlyTheEncodersFrames :
    frameCanonical ⟨6#8, 6#8, 0#8, 0#8⟩ = true ∧ frameCanonical ⟨1#8, 1#8, 0#8, 0#8⟩ = true ∧
      frameCanonical ⟨1#8, 1#8, 5#8, 5#8⟩ = false := by decide

theorem test_witness_EncoderEmitsTheWordOfItsRow :
    encodePorts (.encSet good) = some ⟨6#8, good⟩ ∧ (Instr.encSet good).wellFormed = true ∧
      (Instr.encInit { good with selPresent := false }).wellFormed = true := by decide

theorem test_witness_AddrgenGivesTheExactSumOrAFault :
    (2#8 : Byte).toNat + ((255#8 : Byte).toNat - 1) = 256 ∧ (1#8 : Byte).toNat + ((255#8 : Byte).toNat - 1) = 255 ∧
    addrgenResult 1#8 true 255#8 false = .address 255#8 ∧ addrgenResult 255#8 false 2#8 false = .address 255#8 := by
  decide

theorem test_witness_MaskgenSetsBitNMinusOneForEntryN :
    maskgenBad [1#8, 8#8] = false ∧ maskgenBad [9#8] = true ∧ maskgenBad [0#8] = true := by decide

theorem test_witness_ChangingOneByteFailsTheChecksum :
    csumOk ⟨6#8, 1#8, 5#8, 2#8⟩ = true ∧
    (⟨6#8, 1#8, 4#8, 2#8⟩ : Frame).byte 2 ≠ (⟨6#8, 1#8, 5#8, 2#8⟩ : Frame).byte 2 ∧
    (∀ j : Fin 4, j ≠ 2 → (⟨6#8, 1#8, 4#8, 2#8⟩ : Frame).byte j = (⟨6#8, 1#8, 5#8, 2#8⟩ : Frame).byte j) ∧
    ∃ t, exec (.validate ⟨249#8, 1#8, 0#8, 0#8⟩ ⟨6#8, 1#8, 4#8, 2#8⟩) State.reset = .next t :=
  ⟨by decide, by decide, by decide, _, rfl⟩

theorem test_witness_NoOtherByteIsInspected :
    (⟨6#8, 1#8, 0#8, 0#8⟩ : Frame).opcode = 6#8 ∧
    (∃ t, exec (.validate ⟨6#8, 1#8, 5#8, 2#8⟩ ⟨249#8, 2#8, 5#8, 0#8⟩) State.reset = .next t ∧
      t.valOut.status ≠ 0#2) ∧
    (∃ t, exec (.validate ⟨6#8, 1#8, 5#8, 0x99#8⟩ ⟨249#8, 2#8, 5#8, 0#8⟩) State.reset = .next t) ∧
    (253#8 ^^^ 1#8 ^^^ 5#8 = (252#8 ^^^ 1#8 ^^^ 4#8 : Byte)) ∧ (15#8 ^^^ 7#8 = (8#8 ^^^ 0#8 : Byte)) :=
  ⟨rfl, ⟨_, rfl, by decide⟩, ⟨_, rfl⟩, by decide, by decide⟩

theorem test_witness_EchoOfTheCommandIsUnexpectedOpcode :
    (⟨6#8, 9#8, 9#8, 9#8⟩ : Frame).opcode = (⟨6#8, 1#8, 5#8, 2#8⟩ : Frame).opcode := rfl

theorem test_witness_OutputsDependOnTheTransactionsInputsOnly :
    (∃ t, exec (.encSet good) State.reset = .next t) ∧ (∃ t, exec (.encSet good) busy = .next t) ∧
    (∃ t, exec (.frameRaw 1#8 2#8 3#8) busy = .next t) ∧
    (∃ t, exec (.validate ⟨6#8, 1#8, 5#8, 2#8⟩ ⟨249#8, 1#8, 5#8, 253#8⟩) busy = .next t) ∧
    (validatorSide (.ackSet 1#8 5#8 253#8) = true ∧
      ({ State.reset with host := ⟨[], busy.host.held⟩ } : State).host.held = busy.host.held ∧
      ∃ t, exec (.ackSet 1#8 5#8 253#8) busy = .next t) :=
  ⟨⟨_, rfl⟩, ⟨_, rfl⟩, ⟨_, rfl⟩, ⟨_, rfl⟩, rfl, rfl, _, rfl⟩

theorem test_witness_EncoderAndValidatorTransactionsCommute :
    validatorSide (.encSet good) = false ∧ validatorSide (.addrgen 1#8 true 2#8 false) = false ∧
      validatorSide (.ackSet 1#8 5#8 253#8) = true := by decide

theorem test_witness_BatchStopsAtTheFirstError :
    (sessionCards .set 255#8 [1#8] [2#8] [] State.reset).error = some (.encode 5#3) ∧
    (sessionCards .set 1#8 [1#8] [1#8] [] State.reset).error = some .transport ∧
    (sessionCards .reset 1#8 [1#8] [1#8] [some ⟨248#8, 1#8, 0#8, 249#8⟩] State.reset).error = none := by decide

end Sys2Proof.Tests
end

section
/-! PROOFS. The 32-bit form of a frame (R22): its bytes, its inverse, and the decoder's reading of a 32-bit word. -/

namespace Sys2Proof

/-! ### Packing and unpacking -/

theorem pack_extractLsb' (f : Frame) (i : Fin 4) : f.pack.extractLsb' (8 * i.val) 8 = f.byte i := by
  unfold Frame.pack
  match i with
  | 0 => exact BitVec.extractLsb'_append_eq_right
  | 1 =>
    calc (f.checksum ++ f.data ++ f.address ++ f.opcode).extractLsb' 8 8
      _ = (f.checksum ++ f.data ++ f.address).extractLsb' 0 8 :=
        BitVec.extractLsb'_append_eq_of_le (by omega)
      _ = f.address := BitVec.extractLsb'_append_eq_right
  | 2 =>
    calc (f.checksum ++ f.data ++ f.address ++ f.opcode).extractLsb' 16 8
      _ = (f.checksum ++ f.data ++ f.address).extractLsb' 8 8 :=
        BitVec.extractLsb'_append_eq_of_le (by omega)
      _ = (f.checksum ++ f.data).extractLsb' 0 8 := BitVec.extractLsb'_append_eq_of_le (by omega)
      _ = f.data := BitVec.extractLsb'_append_eq_right
  | 3 =>
    calc (f.checksum ++ f.data ++ f.address ++ f.opcode).extractLsb' 24 8
      _ = (f.checksum ++ f.data ++ f.address).extractLsb' 16 8 :=
        BitVec.extractLsb'_append_eq_of_le (by omega)
      _ = (f.checksum ++ f.data).extractLsb' 8 8 := BitVec.extractLsb'_append_eq_of_le (by omega)
      _ = f.checksum := BitVec.extractLsb'_append_eq_left

@[simp] theorem pack_unpack (w : Word32) : (Frame.unpack w).pack = w :=
  calc (Frame.unpack w).pack
    _ = w.extractLsb' 24 8 ++ w.extractLsb' 16 8 ++ w.extractLsb' 8 8 ++ w.extractLsb' 0 8 := rfl
    _ = w.extractLsb' 16 (8 + 8) ++ w.extractLsb' 8 8 ++ w.extractLsb' 0 8 := by
      rw [BitVec.extractLsb'_append_extractLsb'_eq_extractLsb' (by rfl)]
    _ = w.extractLsb' 8 (8 + 8 + 8) ++ w.extractLsb' 0 8 := by
      rw [BitVec.extractLsb'_append_extractLsb'_eq_extractLsb' (by rfl)]
    _ = w.extractLsb' 0 32 := BitVec.extractLsb'_append_extractLsb'_eq_extractLsb' (by rfl)
    _ = w := BitVec.extractLsb'_eq_self

/-! ### The bytes of a word, least significant first -/

/-- Taking the low byte off a shifted word leaves the word shifted by eight bits more. -/
theorem bytesOfNat_succ_shiftRight {k : Nat} (w : BitVec k) (n start : Nat) :
    bytesOfNat (n + 1) (w.toNat >>> start) =
      w.extractLsb' start 8 :: bytesOfNat n (w.toNat >>> (start + 8)) := by
  rw [bytesOfNat, Nat.shiftRight_add, Nat.shiftRight_eq_div_pow _ 8]
  rfl

/-- The bytes the decoder is given for a 32-bit word are those of the unpacked frame, in wire order (R22, R23). -/
theorem bytesOfNat_toNat (w : Word32) : bytesOfNat 4 w.toNat = (Frame.unpack w).toBytes :=
  calc bytesOfNat 4 w.toNat
    _ = bytesOfNat 4 (w.toNat >>> 0) := rfl
    _ = [w.extractLsb' 0 8, w.extractLsb' 8 8, w.extractLsb' 16 8, w.extractLsb' 24 8] := by
      iterate 4 rw [bytesOfNat_succ_shiftRight]
      rfl
    _ = (Frame.unpack w).toBytes := rfl

/-! ### Decoding -/

theorem decodeBytes_toBytes (f : Frame) : decodeBytes f.toBytes = decodeFrame f := rfl

theorem decodeTableWord_eq_toOption (nbits w : Nat) :
    decodeTableWord nbits w = (decodeBytes (bytesOfNat ((nbits + 7) / 8) w)).toOption := by
  unfold decodeTableWord
  cases decodeBytes (bytesOfNat ((nbits + 7) / 8) w) with
  | ok _ => rfl
  | error _ => rfl

theorem decodeTableWord_toNat (w : Word32) :
    decodeTableWord 32 w.toNat = (decodeFrame (Frame.unpack w)).toOption :=
  calc decodeTableWord 32 w.toNat
    _ = (decodeBytes (bytesOfNat 4 w.toNat)).toOption := decodeTableWord_eq_toOption 32 _
    _ = (decodeFrame (Frame.unpack w)).toOption := by rw [bytesOfNat_toNat, decodeBytes_toBytes]

/-- Settles O9: each byte of a packed frame is found by taking the lower ones off the concatenation, neighbouring
bit ranges of a word join again, and the decoder takes a word apart into the same ranges. -/
theorem packedFrameHoldsByteIAtBits8I : Obligations.PackedFrameHoldsByteIAtBits8I :=
  ⟨pack_extractLsb', pack_unpack, decodeTableWord_toNat⟩

end Sys2Proof
end

section
/-! PROOFS. The encode family: the encoder's outputs are what R86 to R90 and R31 to R34 say of its inputs, and what
follows of its frames and errors. -/

namespace Sys2Proof.Machine

variable {p q : EncPorts} {s : State}

/-! ### ADDRGEN's two faults -/

theorem addrgenResult_eq_invalidCardOffset_iff {b c : Byte} {present : Bool} :
    addrgenResult b present c false = .raised .invalidCardOffset ↔ present = true ∧ c = 0#8 := by
  cases present with
  | false => simp [addrgenResult_base]
  | true =>
    have hc : c = 0#8 ↔ c.toNat = 0 := BitVec.toNat_inj.symm
    rw [addrgenResult_offset, hc]
    split_ifs <;> simp_all

theorem addrgenResult_eq_addressOverflow_iff {b c : Byte} {present : Bool} :
    addrgenResult b present c false = .raised .addressOverflow ↔
      present = true ∧ 255 < b.toNat + c.toNat - 1 := by
  have hb := b.isLt
  cases present with
  | false => simp [addrgenResult_base]
  | true =>
    rw [addrgenResult_offset]
    split_ifs <;> simp <;> omega

/-! ### The five checks -/

/-- Behind a legal opcode a check fails exactly when its error applies to the inputs (R55, R86 to R90). -/
theorem encCheckFails_driveEncoder_iff (h : opdecLegal p.opcode = true) (e : EncError) :
    (s.driveEncoder p).encCheckFails e = true ↔ e.applies p := by
  cases hi : opdecIsInit p.opcode with
  | true =>
    have ho : p.opcode = 1#8 := (opdecIsInit_iff _).1 hi
    cases e <;>
      simp [State.encCheckFails, EncError.applies, commandOpcode, maskOpcode, ho, opdecLegal, opdecIsInit,
        addrgenResult_base]
  | false =>
    have hm : maskOpcode p.opcode := (maskOpcode_iff _).2 ⟨h, hi⟩
    cases e with
    | illegalOpcode => simp [State.encCheckFails, EncError.applies, h, ← opdecLegal_iff]
    | missingRelaySelector => simp [State.encCheckFails, EncError.applies, hi, hm]
    | invalidRelayNumber => simp [State.encCheckFails, EncError.applies, hi, hm, maskgenBad_iff]
    | invalidCardOffset =>
      simp [State.encCheckFails, EncError.applies, hi, hm, addrgenResult_eq_invalidCardOffset_iff]
    | addressOverflow =>
      simp [State.encCheckFails, EncError.applies, hi, hm, addrgenResult_eq_addressOverflow_iff]

/-- The list of R55 is in the order of the priorities: what it finds is a failing check with none before it. -/
theorem find?_encPriority_eq_some {fails : EncError → Bool} {e : EncError}
    (h : encPriority.find? fails = some e) :
    fails e = true ∧ ∀ f : EncError, f.priority < e.priority → fails f = false := by
  have sorted : encPriority.Pairwise fun e f => e.priority < f.priority := by decide
  obtain ⟨he, before, after, hsplit, hbefore⟩ := List.find?_eq_some_iff_append.1 h
  refine ⟨he, fun f hf => ?_⟩
  have hmem : f ∈ before ++ e :: after := by
    rw [← hsplit]
    cases f <;> decide
  rw [hsplit, List.pairwise_append, List.pairwise_cons] at sorted
  obtain ⟨-, ⟨hafter, -⟩, -⟩ := sorted
  rcases List.mem_append.1 hmem with hm | hm
  · simpa using hbefore f hm
  rcases List.mem_cons.1 hm with rfl | hm
  · exact absurd hf (lt_irrefl _)
  · exact absurd hf (hafter f hm).asymm

theorem find?_encPriority_eq_none {fails : EncError → Bool} (h : encPriority.find? fails = none)
    (e : EncError) : fails e = false := by
  have hmem : e ∈ encPriority := by cases e <;> decide
  simpa using List.find?_eq_none.1 h e hmem

/-! ### The frame on the core -/

theorem opdecLegal_of_no_error (h : ∀ e : EncError, ¬ e.applies p) : opdecLegal p.opcode = true :=
  (opdecLegal_iff _).2 (not_not.1 (h .illegalOpcode))

/-- A command that is not Init is Set, Reset or Toggle (R31). -/
theorem maskOpcode_of_legal (h : opdecLegal p.opcode = true) (hi : p.opcode ≠ 1#8) : maskOpcode p.opcode :=
  ((opdecLegal_iff _).1 h).resolve_left hi

theorem coreAddress_toNat (h : ∀ e : EncError, ¬ e.applies p) : (coreAddress p).toNat = frameAddress p := by
  by_cases hb : p.opcode = 1#8 ∨ p.args.offsetPresent = false
  · have hb' : opdecIsInit p.opcode = true ∨ p.args.offsetPresent = false := by rwa [opdecIsInit_iff]
    rw [coreAddress_eq (addrgenResult_base hb'), frameAddress, if_pos hb]
  · obtain ⟨hi, hp⟩ := not_or.1 hb
    have hp : p.args.offsetPresent = true := by simpa using hp
    have hm : maskOpcode p.opcode := maskOpcode_of_legal (opdecLegal_of_no_error h) hi
    have hc : p.args.cardOffset.toNat ≠ 0 := fun hc =>
      h .invalidCardOffset ⟨hm, hp, BitVec.eq_of_toNat_eq hc⟩
    have hfit : ¬ 255 < p.args.baseAddress.toNat + p.args.cardOffset.toNat - 1 := fun hv =>
      h .addressOverflow ⟨hm, hp, hv⟩
    have ha : coreAddress p =
        BitVec.ofNat 8 (p.args.baseAddress.toNat + (p.args.cardOffset.toNat - 1)) := by
      apply coreAddress_eq
      rw [((maskOpcode_iff _).1 hm).2, hp, addrgenResult_offset, if_neg hc, if_neg (by omega)]
    rw [ha, frameAddress, if_neg hb, BitVec.toNat_ofNat]
    omega

theorem coreMask_dataSelects (h : ∀ e : EncError, ¬ e.applies p) : dataSelects p (coreMask p) := by
  intro k hk
  by_cases hi : p.opcode = 1#8
  · simp [(core_init hi).2, hi]
  · have hm : maskOpcode p.opcode := maskOpcode_of_legal (opdecLegal_of_no_error h) hi
    have hs : p.args.selPresent = true := by simpa using fun hs => h .missingRelaySelector ⟨hm, hs⟩
    have hb : maskgenBad p.args.sel = false := by
      rw [← Bool.not_eq_true, maskgenBad_iff]
      exact fun hb => h .invalidRelayNumber ⟨hm, hs, hb⟩
    rw [coreMask_eq ((maskOpcode_iff _).1 hm).2, maskgenMask_getLsbD hb hk]
    exact ⟨fun hk => ⟨hi, hk⟩, fun ⟨_, hk⟩ => hk⟩

/-- Where no error applies, the core shows the command frame (R13, R55). -/
theorem commandFrame_core (h : ∀ e : EncError, ¬ e.applies p) :
    commandFrame p (s.driveEncoder p).core.frame :=
  ⟨rfl, coreAddress_toNat h, coreMask_dataSelects h, rfl⟩

theorem core_canonical (h : ∀ e : EncError, ¬ e.applies p) : (s.driveEncoder p).core.canonical = true := by
  rw [driveEncoder_core, canonicalBit_iff]
  by_cases hi : p.opcode = 1#8
  · exact .inr ⟨hi, (core_init hi).2⟩
  · exact .inl (maskOpcode_of_legal (opdecLegal_of_no_error h) hi)

/-! ### The encoder answers what its rules say -/

/-- R55 answers the error that applies with the highest priority, or OK and the command frame. -/
theorem encodeProcedure_answers (p : EncPorts) (s : State) :
    encoderAnswers p (s.encodeProcedure p).encOut := by
  cases hl : opdecLegal p.opcode with
  | false =>
    have happ : EncError.illegalOpcode.applies p := by
      simp [EncError.applies, ← opdecLegal_iff, hl]
    have hfirst (f : EncError) : ¬ f.priority < EncError.illegalOpcode.priority := by
      cases f <;> decide
    rw [encodeProcedure_illegal hl]
    exact .inl ⟨.illegalOpcode, ⟨happ, fun f hf => absurd hf (hfirst f)⟩, rfl, rfl⟩
  | true =>
    have applies_iff := encCheckFails_driveEncoder_iff (s := s) hl
    cases hf : encPriority.find? (s.driveEncoder p).encCheckFails with
    | some e =>
      obtain ⟨he, hbefore⟩ := find?_encPriority_eq_some hf
      have hrep : e.reported p :=
        ⟨(applies_iff e).1 he, fun f hlt => by simp [← applies_iff, hbefore f hlt]⟩
      simp only [State.encodeProcedure, hf]
      exact .inl ⟨e, hrep, rfl, rfl⟩
    | none =>
      have hno (e : EncError) : ¬ e.applies p := by
        simp [← applies_iff, find?_encPriority_eq_none hf e]
      simp only [State.encodeProcedure, hf]
      exact .inr ⟨hno, rfl, rfl, commandFrame_core hno⟩

/-! ### What the relation `encoderAnswers` determines -/

theorem EncError.priority_injective : Function.Injective EncError.priority := by
  intro e f h
  cases e <;> cases f <;> simp [EncError.priority] at h ⊢

/-- At most one error is reported (R96). -/
theorem EncError.reported_unique {e f : EncError} (he : e.reported p) (hf : f.reported p) : e = f := by
  apply EncError.priority_injective
  rcases lt_trichotomy e.priority f.priority with hlt | heq | hgt
  · exact absurd he.1 (hf.2 e hlt)
  · exact heq
  · exact absurd hf.1 (he.2 f hgt)

theorem encoderAnswers_of_reported {o : EncOut} {e : EncError} (h : encoderAnswers p o) (he : e.reported p) :
    o.status = e.code ∧ o.frameValid = false := by
  rcases h with ⟨f, hf, hstatus, hvalid⟩ | ⟨hno, -⟩
  · exact ⟨EncError.reported_unique he hf ▸ hstatus, hvalid⟩
  · exact absurd he.1 (hno e)

theorem encoderAnswers_of_no_error {o : EncOut} (h : encoderAnswers p o) (hno : ∀ e : EncError, ¬ e.applies p) :
    o.status = 0#3 ∧ o.frameValid = true ∧ commandFrame p o.frame := by
  rcases h with ⟨e, he, -⟩ | ⟨-, hok⟩
  · exact absurd he.1 (hno e)
  · exact hok

theorem encoderAnswers_of_frameValid {o : EncOut} (h : encoderAnswers p o) (hv : o.frameValid = true) :
    (∀ e : EncError, ¬ e.applies p) ∧ commandFrame p o.frame := by
  rcases h with ⟨-, -, -, hinvalid⟩ | ⟨hno, -, -, hframe⟩
  · exact absurd (hinvalid.symm.trans hv) Bool.false_ne_true
  · exact ⟨hno, hframe⟩

/-- The inputs determine the command frame (R31 to R34). -/
theorem commandFrame_unique {f g : Frame} (hf : commandFrame p f) (hg : commandFrame p g) : f = g := by
  obtain ⟨fo, fa, fd, fc⟩ := f
  obtain ⟨go, ga, gd, gc⟩ := g
  obtain ⟨hfo, hfa, hfd, hfc⟩ := hf
  obtain ⟨hgo, hga, hgd, hgc⟩ := hg
  obtain rfl : fo = go := hfo.trans hgo.symm
  obtain rfl : fa = ga := BitVec.eq_of_toNat_eq (hfa.trans hga.symm)
  obtain rfl : fd = gd := BitVec.eq_of_getLsbD_eq fun k hk =>
    Bool.eq_iff_iff.2 ((hfd k hk).trans (hgd k hk).symm)
  obtain rfl : fc = gc := hfc.trans hgc.symm
  rfl

/-- The inputs determine every output that has a meaning (R2). -/
theorem encoderAnswers_unique {o o' : EncOut} (h : encoderAnswers p o) (h' : encoderAnswers p o') :
    o.status = o'.status ∧ o.frameValid = o'.frameValid ∧ (o.frameValid = true → o.frame = o'.frame) := by
  rcases h with ⟨e, he, hstatus, hvalid⟩ | ⟨hno, hstatus, hvalid, hframe⟩
  · obtain ⟨hstatus', hvalid'⟩ := encoderAnswers_of_reported h' he
    exact ⟨hstatus.trans hstatus'.symm, hvalid.trans hvalid'.symm, by simp [hvalid]⟩
  · obtain ⟨hstatus', hvalid', hframe'⟩ := encoderAnswers_of_no_error h' hno
    exact ⟨hstatus.trans hstatus'.symm, hvalid.trans hvalid'.symm, fun _ => commandFrame_unique hframe hframe'⟩

/-! ### Order and repetition of the selector -/

section
variable {sel : List Byte} (hsel : ∀ n, n ∈ sel ↔ n ∈ p.args.sel)
include hsel

theorem EncError.applies_sel_congr (e : EncError) :
    e.applies ⟨p.opcode, { p.args with sel := sel }⟩ ↔ e.applies p := by
  cases e <;> simp [EncError.applies, hsel]

/-- The rules read of the selector which entries it has, and nothing more (R62). -/
theorem encoderAnswers_sel_congr (o : EncOut) :
    encoderAnswers ⟨p.opcode, { p.args with sel := sel }⟩ o ↔ encoderAnswers p o := by
  simp only [encoderAnswers, EncError.reported, EncError.applies_sel_congr hsel, commandFrame, dataSelects,
    frameAddress, hsel]

end

/-! ### The encode instructions -/

/-- Settles O12: Init takes the branch of R55 that raises nothing and reads the base address only. -/
theorem encInitAlwaysAnswersItsFrame : Obligations.EncInitAlwaysAnswersItsFrame := by
  intro o s
  refine ⟨s.encodeProcedure ⟨1#8, o⟩, exec_encode rfl s, by simp, ?_⟩
  rw [encodeProcedure_init rfl, returnFrame_encOut, BitVec.xor_zero]

/-- Settles O14: the outputs answer the inputs by the rules, and a valid frame is the core's. -/
theorem encodeReportsTheFirstFailingCheck : Obligations.EncodeReportsTheFirstFailingCheck := by
  intro s p rest hpending
  refine ⟨_, step_encode hpending, by simp, encodeProcedure_answers _ _, fun hvalid => ⟨?_, ?_⟩⟩
  · rw [encodeProcedure_frame_eq_core hvalid, encodeProcedure_core]
  · rw [encodeProcedure_core]
    exact core_canonical (encoderAnswers_of_frameValid (encodeProcedure_answers _ _) hvalid).1

/-- Settles O18: a valid frame is the command frame, and FRAME.RAW's is the core's on every input. -/
theorem fourthByteIsTheXorOfTheFirstThree : Obligations.FourthByteIsTheXorOfTheFirstThree := by
  refine ⟨fun i p s t hi ht hvalid => ?_, fun o a m s => ⟨_, rfl, rfl⟩⟩
  rw [exec_encode hi] at ht
  cases ht
  obtain ⟨-, hopcode, -, -, hchecksum⟩ := encoderAnswers_of_frameValid (encodeProcedure_answers p s) hvalid
  exact ⟨hopcode, hopcode ▸ hchecksum⟩

/-- Settles O20: both transactions answer the same inputs as far as the rules read them. -/
theorem orderAndRepetitionOfTheSelectorDoNotMatter :
    Obligations.OrderAndRepetitionOfTheSelectorDoNotMatter := by
  intro i j p sel s t u hi hj hsel ht hu
  rw [exec_encode hi] at ht
  rw [exec_encode hj] at hu
  cases ht
  cases hu
  exact encoderAnswers_unique (encodeProcedure_answers p s)
    ((encoderAnswers_sel_congr hsel _).1 (encodeProcedure_answers _ s))

/-- Settles O21: with these operands no error applies, so the answer is the command frame, whose address is the
sum. -/
theorem encodedAddressIsBasePlusOffsetMinusOne : Obligations.EncodedAddressIsBasePlusOffsetMinusOne := by
  intro i p s hi hopcode hpresent hsel hoffset hc hfit
  have hno (e : EncError) : ¬ e.applies p := by
    cases e with
    | illegalOpcode => exact not_not.2 ((opdecLegal_iff _).1 (opdecLegal_encodePorts hi))
    | missingRelaySelector => simp [EncError.applies, hpresent]
    | invalidRelayNumber =>
      rintro ⟨-, -, n, hn, hbad⟩
      have := hsel n hn
      omega
    | invalidCardOffset =>
      rintro ⟨-, -, hzero⟩
      simp [hzero] at hc
    | addressOverflow =>
      rintro ⟨-, -, hover⟩
      omega
  obtain ⟨-, hvalid, -, haddress, -, -⟩ := encoderAnswers_of_no_error (encodeProcedure_answers p s) hno
  rw [frameAddress, if_neg (by simp [hopcode, hoffset])] at haddress
  refine ⟨_, exec_encode hi s, hvalid, haddress, fun hone => BitVec.eq_of_toNat_eq ?_⟩
  simpa [hone] using haddress

/-- A selector entry outside 1..8 is reported before anything the address depends on (R55, R64). -/
theorem reported_invalidRelayNumber (hm : maskOpcode p.opcode) (hs : p.args.selPresent = true)
    (hbad : ∃ n ∈ p.args.sel, n.toNat = 0 ∨ 9 ≤ n.toNat) : EncError.invalidRelayNumber.reported p := by
  refine ⟨⟨hm, hs, hbad⟩, fun f hf => ?_⟩
  cases f with
  | illegalOpcode => exact not_not.2 (.inr hm)
  | missingRelaySelector => simp [EncError.applies, hs]
  | invalidRelayNumber | invalidCardOffset | addressOverflow => simp [EncError.priority] at hf

theorem exec_reports_invalidRelayNumber {i : Instr} (hi : encodePorts i = some p) (hm : maskOpcode p.opcode)
    (hs : p.args.selPresent = true) (hbad : ∃ n ∈ p.args.sel, n.toNat = 0 ∨ 9 ≤ n.toNat) (s : State) :
    ∃ t, exec i s = .next t ∧ t.encOut.status = 1#3 ∧ t.encOut.frameValid = false :=
  ⟨_, exec_encode hi s,
    encoderAnswers_of_reported (encodeProcedure_answers p s) (reported_invalidRelayNumber hm hs hbad)⟩

/-- Settles O22: 0 and 9 are outside 1..8, so each of the three commands reports the entry. -/
theorem relayZeroOrNineFailsWithInvalidRelayNumber :
    Obligations.RelayZeroOrNineFailsWithInvalidRelayNumber := by
  intro o s hs hmem
  have hbad : ∃ n ∈ o.sel, n.toNat = 0 ∨ 9 ≤ n.toNat :=
    hmem.elim (fun h => ⟨0#8, h, by decide⟩) (fun h => ⟨9#8, h, by decide⟩)
  exact ⟨exec_reports_invalidRelayNumber rfl (.inl rfl) hs hbad s,
    exec_reports_invalidRelayNumber rfl (.inr (.inl rfl)) hs hbad s,
    exec_reports_invalidRelayNumber rfl (.inr (.inr rfl)) hs hbad s⟩

/-! ### The mask as a set of relays -/

section
variable {sel : List Byte} (hsel : ∀ n ∈ sel, 1 ≤ n.toNat ∧ n.toNat ≤ 8)
include hsel

theorem maskgenMask_getLsbD_of_legal {k : Nat} (hk : k < 8) :
    (maskgenMask sel).getLsbD k = true ↔ BitVec.ofNat 8 (k + 1) ∈ sel :=
  maskgenMask_getLsbD ((maskgenBad_eq_false_iff sel).2 hsel) hk

/-- The set bits of the mask, counted from relay 1, are the selector's entries without repetition. -/
theorem setBits_perm_dedup :
    (((List.range 8).filter fun k => (maskgenMask sel).getLsbD k).map fun k => BitVec.ofNat 8 (k + 1)).Perm
      sel.dedup := by
  refine (List.perm_ext_iff_of_nodup ?_ sel.nodup_dedup).2 fun n => ?_
  · refine (List.nodup_range.filter _).map_on fun i hi j hj hij => ?_
    have hi : i < 8 := List.mem_range.1 (List.mem_of_mem_filter hi)
    have hj : j < 8 := List.mem_range.1 (List.mem_of_mem_filter hj)
    have := congrArg BitVec.toNat hij
    simp only [BitVec.toNat_ofNat] at this
    omega
  · simp only [List.mem_map, List.mem_filter, List.mem_range, List.mem_dedup]
    constructor
    · rintro ⟨k, ⟨hk, hbit⟩, rfl⟩
      exact (maskgenMask_getLsbD_of_legal hsel hk).1 hbit
    · intro hn
      have hrange := hsel n hn
      have hk : n.toNat - 1 < 8 := by omega
      have hback : BitVec.ofNat 8 (n.toNat - 1 + 1) = n := by
        rw [Nat.sub_add_cancel hrange.1, BitVec.ofNat_toNat, BitVec.setWidth_eq]
      exact ⟨n.toNat - 1, ⟨hk, (maskgenMask_getLsbD_of_legal hsel hk).2 (hback.symm ▸ hn)⟩, hback⟩

theorem countP_maskgenMask :
    ((List.range 8).countP fun k => (maskgenMask sel).getLsbD k) = sel.dedup.length := by
  rw [List.countP_eq_length_filter, ← (setBits_perm_dedup hsel).length_eq, List.length_map]

end

theorem maskgenMask_union {u v w : List Byte} (hu : ∀ n ∈ u, 1 ≤ n.toNat ∧ n.toNat ≤ 8)
    (hv : ∀ n ∈ v, 1 ≤ n.toNat ∧ n.toNat ≤ 8) (hw : ∀ n, n ∈ w ↔ n ∈ u ∨ n ∈ v) :
    maskgenMask w = maskgenMask u ||| maskgenMask v := by
  have hlegal : ∀ n ∈ w, 1 ≤ n.toNat ∧ n.toNat ≤ 8 := fun n hn => ((hw n).1 hn).elim (hu n) (hv n)
  refine BitVec.eq_of_getLsbD_eq fun k hk => Bool.eq_iff_iff.2 ?_
  rw [BitVec.getLsbD_or, Bool.or_eq_true, maskgenMask_getLsbD_of_legal hlegal hk,
    maskgenMask_getLsbD_of_legal hu hk, maskgenMask_getLsbD_of_legal hv hk]
  exact hw _

/-- Settles O19: bit `k` of the mask says whether relay `k+1` is listed, so the mask is the set of the entries. -/
theorem maskHasOneBitPerRelayAndUnionIsOr : Obligations.MaskHasOneBitPerRelayAndUnionIsOr :=
  ⟨fun _ => countP_maskgenMask, fun _ _ _ => maskgenMask_union, by decide, by decide⟩

end Sys2Proof.Machine
end

section
/-! PROOFS. The validate family: VALIDATE's flags are the three stages (R71 to R73), and its status is OK exactly
when none of them fails (R75). -/

namespace Sys2Proof.Machine

variable (sent resp : Frame) (s : State)

/-! ### The flags are driven whatever the outcome (R74) -/

theorem validateProcedure_flags :
    (s.validateProcedure sent resp).valOut.opOk = opOk sent resp ∧
      (s.validateProcedure sent resp).valOut.addrOk = addrOk sent resp ∧
      (s.validateProcedure sent resp).valOut.csumOk = csumOk resp := by
  rw [validateProcedure_valOut]
  split_ifs with hop haddr hcsum
  · simp [hop]
  · simp [hop, haddr]
  · simp [hop, haddr, hcsum]
  · simp [hop, haddr, hcsum]

/-! ### The status -/

/-- Each failing stage reports a code of its own, and none of them is OK's. -/
theorem validateProcedure_status_eq_ok_iff :
    (s.validateProcedure sent resp).valOut.status = 0#2 ↔
      opOk sent resp = true ∧ addrOk sent resp = true ∧ csumOk resp = true := by
  rw [validateProcedure_valOut]
  split_ifs with hop haddr hcsum
  · simp [hop]
  · simp [haddr]
  · simp [hcsum]
  · simp [hop, haddr, hcsum]

/-- Settles O34: the flags are the three stages, and each stage is its condition on the bytes. -/
theorem validateSucceedsExactlyWhenAllStagesPass :
    Obligations.ValidateSucceedsExactlyWhenAllStagesPass := by
  intro sent resp s
  obtain ⟨hop, haddr, hcsum⟩ := validateProcedure_flags sent resp s
  have hstatus := validateProcedure_status_eq_ok_iff sent resp s
  refine ⟨s.validateProcedure sent resp, rfl, ?_, ?_⟩
  · rwa [hop, haddr, hcsum]
  · rwa [← opOk_iff, ← addrOk_iff, ← csumOk_iff]

end Sys2Proof.Machine
end

section
/-! PROOFS. The units of the block, each run by itself: its outputs are what its rule gives for its inputs (R50 to
R54, R70), in the relations of Safety.lean. -/

namespace Sys2Proof.Machine

/-! ### The front end -/

theorem opdecAnswers_drive (o : Byte) : opdecAnswers ⟨o, opdecLegal o, opdecIsInit o⟩ :=
  ⟨opdecLegal_iff o, opdecIsInit_iff o⟩

theorem maskgenAnswers_drive (sel : List Byte) : maskgenAnswers ⟨sel, maskgenMask sel, maskgenBad sel⟩ :=
  ⟨maskgenBad_iff sel, fun hb _ hk => maskgenMask_getLsbD hb hk⟩

/-- An offset of at least 1 whose sum fits 8 bits gives the sum (R52). -/
theorem addrgenResult_sum {b c : Byte} (hc : c ≠ 0#8) (hfit : b.toNat + c.toNat - 1 ≤ 255) :
    ∃ a : Byte, addrgenResult b true c false = .address a ∧ a.toNat = b.toNat + c.toNat - 1 := by
  have hpos : c.toNat ≠ 0 := fun h => hc (BitVec.eq_of_toNat_eq h)
  refine ⟨_, by rw [addrgenResult_offset, if_neg hpos, if_neg (by omega)], ?_⟩
  rw [BitVec.toNat_ofNat]
  omega

theorem addrgenAnswers_drive (b : Byte) (p : Bool) (c : Byte) (n : Bool) :
    addrgenAnswers ⟨b, p, c, n, addrgenResult b p c n⟩ := by
  refine ⟨fun h => addrgenResult_base h, ?_, ?_, ?_⟩
  · rintro rfl hp hc
    exact addrgenResult_eq_invalidCardOffset_iff.2 ⟨hp, hc⟩
  · rintro rfl hp - hover
    exact addrgenResult_eq_addressOverflow_iff.2 ⟨hp, hover⟩
  · rintro rfl rfl hc hfit
    exact addrgenResult_sum hc hfit

theorem xorsumAnswers_drive (a b c : Byte) : xorsumAnswers ⟨a, b, c, a ^^^ b ^^^ c⟩ := by
  intro i _
  rw [BitVec.getLsbD_xor, BitVec.getLsbD_xor]

/-- Settles O28: OPDEC's two comparisons. -/
theorem opdecClassifiesTheOpcode : Obligations.OpdecClassifiesTheOpcode := fun o _ =>
  ⟨_, _, rfl, opdecAnswers_drive o⟩

/-- Settles O29: relay `n` of the statement is bit `k = n - 1` of MASKGEN's relation. -/
theorem maskgenSetsBitNMinusOneForEntryN : Obligations.MaskgenSetsBitNMinusOneForEntryN := by
  intro sel s
  obtain ⟨hbad, hmask⟩ := maskgenAnswers_drive sel
  refine ⟨_, _, rfl, hbad, fun hb n h1 h8 => ?_⟩
  have hbit := hmask hb (n - 1) (by omega)
  rwa [Nat.sub_add_cancel h1] at hbit

/-- Settles O30: the four cases of R52; with an offset of at least 1 the statement's sum is that of the lemmas. -/
theorem addrgenGivesTheExactSumOrAFault : Obligations.AddrgenGivesTheExactSumOrAFault := by
  intro b p c n s
  refine ⟨_, rfl, addrgenResult_base, ?_⟩
  rintro rfl rfl
  refine ⟨fun hc => addrgenResult_eq_invalidCardOffset_iff.2 ⟨rfl, hc⟩,
    fun _ hover => addrgenResult_eq_addressOverflow_iff.2 ⟨rfl, by omega⟩, fun hc hfit => ?_⟩
  obtain ⟨a, hresult, hsum⟩ := addrgenResult_sum hc (by omega : b.toNat + c.toNat - 1 ≤ 255)
  have hpos : c.toNat ≠ 0 := fun h => hc (BitVec.eq_of_toNat_eq h)
  exact ⟨a, hresult, by omega⟩

/-- Settles O31: a byte XORed with itself is zero, whatever stands between. -/
theorem xorsumGivesTheXorOfThreeBytes : Obligations.XorsumGivesTheXorOfThreeBytes := by
  intro a b c s
  refine ⟨_, rfl, rfl, xorsumAnswers_drive a b c, ?_⟩
  calc a ^^^ b ^^^ c ^^^ a ^^^ b ^^^ c
    _ = (a ^^^ b ^^^ c) ^^^ (a ^^^ b ^^^ c) := by simp only [BitVec.xor_assoc]
    _ = 0#8 := BitVec.xor_self

/-! ### The core -/

theorem coreAnswers_drive (o a m : Byte) :
    coreAnswers ⟨o, a, m, ⟨o, a, m, o ^^^ a ^^^ m⟩, canonicalBit o m⟩ :=
  ⟨rfl, canonicalBit_iff o m⟩

/-- The predicate `canonical(F)` as R54 says it. -/
theorem frameCanonical_iff (f : Frame) :
    frameCanonical f = true ↔
      f.checksum = f.opcode ^^^ f.address ^^^ f.data ∧ (maskOpcode f.opcode ∨ (f.opcode = 1#8 ∧ f.data = 0#8)) := by
  rw [frameCanonical, Bool.and_eq_true, beq_iff_eq, canonicalBit_iff]

/-- What the core marks canonical is a canonical frame (R54). -/
theorem coreAnswers_frameCanonical {c : CoreWires} (h : coreAnswers c) :
    c.canonical = true ↔ frameCanonical c.frame = true := by
  obtain ⟨hframe, hcanonical⟩ := h
  rw [hcanonical, frameCanonical_iff, hframe]
  exact ⟨fun h => ⟨rfl, h⟩, fun ⟨_, h⟩ => h⟩

/-- Settles O27: the core has no failing input, and its `canonical` output is the predicate on its frame. -/
theorem frameRawAnswersOnAllInputs : Obligations.FrameRawAnswersOnAllInputs :=
  ⟨fun o a m _ => ⟨_, rfl, canonicalBit_iff o m, coreAnswers_frameCanonical (coreAnswers_drive o a m)⟩,
    frameCanonical_iff⟩

/-! ### The validator -/

/-- VALIDATE's outputs are those of R74's table. -/
theorem validateProcedure_answers (sent resp : Frame) (s : State) :
    validatorAnswers ⟨sent, resp⟩ (s.validateProcedure sent resp).valOut := by
  obtain ⟨hop, haddr, hcsum⟩ := validateProcedure_flags sent resp s
  refine ⟨hop ▸ opOk_iff sent resp, haddr ▸ addrOk_iff sent resp, hcsum ▸ csumOk_iff resp, ?_⟩
  rw [hop, haddr, hcsum, validateProcedure_valOut, ← expectedOpcode_eq]
  refine ⟨fun h1 => ?_, fun h1 h2 => ?_, fun h1 h2 h3 => ?_, fun h1 h2 h3 => ?_⟩
  · simp [h1]
  · simp [h1, h2]
  · simp [h1, h2, h3, expectedChecksum]
  · simp [h1, h2, h3]

end Sys2Proof.Machine
end

section
/-! PROOFS. The step: what one can do (R2, R14), and the invariant that every output is what its rule gives for the
inputs beside it (R2, R105). -/

namespace Sys2Proof.Machine

variable {s t : State} {r : Request} {rest : List Request}

/-! ### What a step does, by what the host presents -/

theorem step_of_nothing_pending (h : s.host.pending = []) : step s = .next s := by
  simp [step, State.fetch, h]

theorem step_of_decode_ok {i : Instr} (h : s.host.pending = r :: rest) (hd : decodeRequest r = .ok i) :
    step s = exec i { s with host := ⟨rest, s.host.held⟩ } := by
  simp [step, State.fetch, h, hd]

theorem step_of_decode_error {e : DecodeError} (h : s.host.pending = r :: rest)
    (hd : decodeRequest r = .error e) : step s = onDecodeError e { s with host := ⟨rest, s.host.held⟩ } := by
  simp [step, State.fetch, h, hd]

/-- What a step that answers a next state has done. -/
theorem step_cases (h : step s = .next t) :
    t = s ∨ ∃ rest : List Request, (∃ i, exec i { s with host := ⟨rest, s.host.held⟩ } = .next t) ∨
      (∃ p, t = ({ s with host := ⟨rest, s.host.held⟩ } : State).encodeProcedure p) ∨
      ∃ f, t = ({ s with host := ⟨rest, s.host.held⟩ } : State).hold f := by
  cases hp : s.host.pending with
  | nil =>
    rw [step_of_nothing_pending hp] at h
    cases h
    exact .inl rfl
  | cons r rest =>
    refine .inr ⟨rest, ?_⟩
    cases hd : decodeRequest r with
    | ok i => exact .inl ⟨i, step_of_decode_ok hp hd ▸ h⟩
    | error e =>
      rw [step_of_decode_error hp hd] at h
      cases e with
      | undefinedOpcode p =>
        cases h
        exact .inr (.inl ⟨p, rfl⟩)
      | badLength n => cases h
      | hostHolds f =>
        cases h
        exact .inr (.inr ⟨f, rfl⟩)

/-! ### Consistency is kept by each operation -/

theorem encodeProcedure_consistent (p : EncPorts) (h : s.consistent) : (s.encodeProcedure p).consistent := by
  obtain ⟨-, -, hval, -, -, -, -⟩ := h
  refine ⟨?_, ?_, ?_, ?_, ?_, ?_, ?_⟩
  · rw [encodeProcedure_encIn]
    exact encodeProcedure_answers p s
  · rw [encodeProcedure_core]
    exact coreAnswers_drive _ _ _
  · rwa [encodeProcedure_valIn, encodeProcedure_valOut]
  · rw [encodeProcedure_opdec]
    exact opdecAnswers_drive _
  · rw [encodeProcedure_maskgen]
    exact maskgenAnswers_drive _
  · rw [encodeProcedure_addrgen]
    exact addrgenAnswers_drive _ _ _ _
  · rw [encodeProcedure_xorsum]
    exact xorsumAnswers_drive _ _ _

theorem validateProcedure_consistent (sent resp : Frame) (h : s.consistent) :
    (s.validateProcedure sent resp).consistent := by
  obtain ⟨henc, hcore, -, hopdec, hmaskgen, haddrgen, hxorsum⟩ := h
  rw [validateProcedure_eq]
  exact ⟨henc, hcore, validateProcedure_answers sent resp s, hopdec, hmaskgen, haddrgen, hxorsum⟩

theorem exec_consistent {i : Instr} (h : s.consistent) (he : exec i s = .next t) : t.consistent := by
  obtain ⟨henc, hcore, hval, hopdec, hmaskgen, haddrgen, hxorsum⟩ := id h
  cases i with
  | encInit o | encSet o | encReset o | encToggle o =>
    rw [exec_encode rfl] at he
    cases he
    exact encodeProcedure_consistent _ h
  | validate _ _ | ackInit _ _ _ | ackSet _ _ _ | ackReset _ _ _ | ackToggle _ _ _ =>
    cases he
    exact validateProcedure_consistent _ _ h
  | frameRaw o a m =>
    cases he
    exact ⟨henc, coreAnswers_drive o a m, hval, hopdec, hmaskgen, haddrgen, xorsumAnswers_drive o a m⟩
  | opdec o =>
    cases he
    exact ⟨henc, hcore, hval, opdecAnswers_drive o, hmaskgen, haddrgen, hxorsum⟩
  | maskgen sel =>
    cases he
    exact ⟨henc, hcore, hval, hopdec, maskgenAnswers_drive sel, haddrgen, hxorsum⟩
  | addrgen b p c n =>
    cases he
    exact ⟨henc, hcore, hval, hopdec, hmaskgen, addrgenAnswers_drive b p c n, hxorsum⟩
  | xorsum a b c =>
    cases he
    exact ⟨henc, hcore, hval, hopdec, hmaskgen, haddrgen, xorsumAnswers_drive a b c⟩

/-! ### The statements about the step -/

/-- Settles O11: a step runs an instruction, an encode transaction or the host's holding; consistency does not read
the host, and each of the three keeps it. -/
theorem stepKeepsEveryOutputAFunctionOfItsInputs : Obligations.StepKeepsEveryOutputAFunctionOfItsInputs := by
  intro s t hs h
  rcases step_cases h with rfl | ⟨rest, ⟨i, he⟩ | ⟨p, rfl⟩ | ⟨f, rfl⟩⟩
  · exact hs
  · exact exec_consistent (s := { s with host := ⟨rest, s.host.held⟩ }) hs he
  · exact encodeProcedure_consistent (s := { s with host := ⟨rest, s.host.held⟩ }) p hs
  · exact hs

/-- Settles O1: by the definition of the step. -/
theorem stepRunsTheDecodedTransaction : Obligations.StepRunsTheDecodedTransaction :=
  fun _ _ _ _ => step_of_decode_ok

/-- Settles O4: nothing is fetched from an empty list. -/
theorem stepWithNothingPresentedChangesNothing : Obligations.StepWithNothingPresentedChangesNothing :=
  fun _ => step_of_nothing_pending

/-- The reset values are what the rules give for zero inputs (log 4): an undefined opcode, an empty selector, an
absent offset, and a response whose first byte is not the complement of the sent one. -/
theorem reset_consistent : State.reset.consistent := by
  refine ⟨.inl ⟨.illegalOpcode, ⟨?_, ?_⟩, rfl, rfl⟩, coreAnswers_drive 0#8 0#8 0#8, ?_, opdecAnswers_drive 0#8,
    maskgenAnswers_drive [], addrgenAnswers_drive 0#8 false 0#8 false, xorsumAnswers_drive 0#8 0#8 0#8⟩
  · simp [EncError.applies, commandOpcode, State.reset]
  · intro f hf
    cases f <;> simp [EncError.priority] at hf
  · exact validateProcedure_answers ⟨0#8, 0#8, 0#8, 0#8⟩ ⟨0#8, 0#8, 0#8, 0#8⟩ State.reset

/-- Settles O10: the reset values, and the empty list of log 2. -/
theorem resetIsConsistent : Obligations.ResetIsConsistent :=
  ⟨reset_consistent, rfl⟩

/-! ### What may be sent -/

/-- A frame the encoder's rules call valid is canonical (R54, R60, R65). -/
theorem encoderAnswers_frameCanonical {p : EncPorts} {o : EncOut} (h : encoderAnswers p o)
    (hv : o.frameValid = true) : frameCanonical o.frame = true := by
  obtain ⟨hno, hopcode, -, hdata, hchecksum⟩ := encoderAnswers_of_frameValid h hv
  refine (frameCanonical_iff _).2 ⟨hchecksum, ?_⟩
  rw [hopcode]
  by_cases hi : p.opcode = 1#8
  · refine .inr ⟨hi, BitVec.eq_of_getLsbD_eq fun k hk => ?_⟩
    have hbit : ¬ o.frame.data.getLsbD k = true := fun hb => ((hdata k hk).1 hb).1 hi
    simpa using hbit
  · exact .inl (maskOpcode_of_legal (opdecLegal_of_no_error hno) hi)

/-- Settles O43: a valid frame answers its inputs without error, and the core marks canonical frames only. -/
theorem whatMayBeSentIsCanonical : Obligations.WhatMayBeSentIsCanonical := by
  rintro s ⟨henc, hcore, -⟩
  exact ⟨encoderAnswers_frameCanonical henc, (coreAnswers_frameCanonical hcore).1⟩

end Sys2Proof.Machine
end

section
/-! PROOFS. The decoder and the encoding table: what each accepts, and that they agree (R33, R41, R65). -/

namespace Sys2Proof

open Machine

/-! ### A drive of the encoder's ports -/

theorem decodePorts_of_encodePorts {i : Instr} {p : EncPorts} (h : encodePorts i = some p) :
    decodePorts p = .ok i := by
  cases i <;> simp [encodePorts] at h <;> subst h <;> rfl

theorem encodePorts_of_decodePorts {i : Instr} {p : EncPorts} (h : decodePorts p = .ok i) :
    encodePorts i = some p := by
  rcases decodePorts_cases p with ⟨j, hd, hj⟩ | hd
  · cases hd.symm.trans h
    exact hj
  · cases hd.symm.trans h

theorem exists_encodePorts {p : EncPorts} (h : commandOpcode p.opcode) : ∃ i, encodePorts i = some p := by
  obtain ⟨o, a⟩ := p
  rcases h with rfl | rfl | rfl | rfl
  · exact ⟨.encInit a, rfl⟩
  · exact ⟨.encSet a, rfl⟩
  · exact ⟨.encReset a, rfl⟩
  · exact ⟨.encToggle a, rfl⟩

theorem commandOpcode_of_encodePorts {i : Instr} {p : EncPorts} (h : encodePorts i = some p) :
    commandOpcode p.opcode :=
  (opdecLegal_iff _).1 (opdecLegal_encodePorts h)

/-- The decoder rejects exactly the drives whose opcode no command has (R37). -/
theorem decodePorts_eq_undefined_iff (p : EncPorts) :
    decodePorts p = .error (.undefinedOpcode p) ↔ ¬ commandOpcode p.opcode := by
  constructor
  · intro hd hc
    obtain ⟨i, hi⟩ := exists_encodePorts hc
    cases (decodePorts_of_encodePorts hi).symm.trans hd
  · intro hn
    rcases decodePorts_cases p with ⟨i, -, hi⟩ | hd
    · exact absurd (commandOpcode_of_encodePorts hi) hn
    · exact hd

/-- Settles O8: the two directions of the drive, and its rejection. -/
theorem portsOfEncodeOperationsRoundTrip : Obligations.PortsOfEncodeOperationsRoundTrip :=
  ⟨fun _ _ => decodePorts_of_encodePorts, fun _ _ => encodePorts_of_decodePorts, decodePorts_eq_undefined_iff⟩

/-! ### A word -/

theorem Frame.toBytes_injective : Function.Injective Frame.toBytes := by
  rintro ⟨o, a, d, c⟩ ⟨o', a', d', c'⟩ h
  simpa [Frame.toBytes] using h

/-- No response class has the first byte of a command (R31, R35). -/
theorem decodeFrame_of_command {f : Frame} (h : commandOpcode f.opcode) :
    decodeFrame f = decodePorts ⟨f.opcode, argsOfFrame f⟩ := by
  rcases h with h | h | h | h <;> simp [decodeFrame, ackOpcode, h]

/-- A four-byte word is a response, which is its own word, or the drive that its frame stands for (log 10). -/
theorem decodeFrame_cases (f : Frame) :
    (∃ i, decodeFrame f = .ok i ∧ validatorSide i = true ∧ encodeBytes i = some f.toBytes) ∨
      decodeFrame f = decodePorts ⟨f.opcode, argsOfFrame f⟩ := by
  obtain ⟨o, a, d, c⟩ := f
  unfold decodeFrame
  split_ifs with hinit hset hreset htoggle
  · exact .inl ⟨_, rfl, rfl, by rw [Frame.toBytes, hinit]; rfl⟩
  · exact .inl ⟨_, rfl, rfl, by rw [Frame.toBytes, hset]; rfl⟩
  · exact .inl ⟨_, rfl, rfl, by rw [Frame.toBytes, hreset]; rfl⟩
  · exact .inl ⟨_, rfl, rfl, by rw [Frame.toBytes, htoggle]; rfl⟩
  · exact .inr rfl

/-- The lengths of the three formats (log 9). -/
theorem decodeBytes_cases (bs : List Byte) :
    (∃ o a m, bs = [o, a, m]) ∨ (∃ f : Frame, bs = f.toBytes) ∨
      (∃ sent resp : Frame, bs = sent.toBytes ++ resp.toBytes) ∨
      decodeBytes bs = .error (.badLength bs.length) := by
  unfold decodeBytes
  split
  · exact .inl ⟨_, _, _, rfl⟩
  · exact .inr (.inl ⟨⟨_, _, _, _⟩, rfl⟩)
  · exact .inr (.inr (.inl ⟨⟨_, _, _, _⟩, ⟨_, _, _, _⟩, rfl⟩))
  · exact .inr (.inr (.inr rfl))

/-- Settles O5: the ten words of the table and the undefined one are run. -/
theorem wordsOfTheTableDecode : Obligations.WordsOfTheTableDecode :=
  ⟨rfl, rfl, rfl, rfl, rfl, rfl, rfl, rfl, rfl, rfl, rfl⟩

/-- Settles O3: a word of none of the three lengths has no format. -/
theorem stepRefusesAWordNoUnitTakes : Obligations.StepRefusesAWordNoUnitTakes := by
  intro s bs rest hp h3 h4 h8
  have hd : decodeBytes bs = .error (.badLength bs.length) := by
    rcases decodeBytes_cases bs with ⟨o, a, m, rfl⟩ | ⟨f, rfl⟩ | ⟨sent, resp, rfl⟩ | hd
    · exact absurd rfl h3
    · exact absurd rfl h4
    · exact absurd rfl h8
    · exact hd
  exact step_of_decode_error hp hd

/-! ### What a request decodes to -/

theorem internalRow_of_encodePorts {i : Instr} {p : EncPorts} (h : encodePorts i = some p) :
    internalRow i = false := by
  cases i with
  | opdec _ | maskgen _ | addrgen _ _ _ _ | xorsum _ _ _ => cases h
  | _ => rfl

theorem internalRow_of_validatorSide {i : Instr} (h : validatorSide i = true) : internalRow i = false := by
  cases i with
  | opdec _ | maskgen _ | addrgen _ _ _ _ | xorsum _ _ _ => cases h
  | _ => rfl

theorem internalRow_of_decodeFrame {f : Frame} {i : Instr} (h : decodeFrame f = .ok i) :
    internalRow i = false := by
  rcases decodeFrame_cases f with ⟨j, hd, hside, -⟩ | hd
  · cases hd.symm.trans h
    exact internalRow_of_validatorSide hside
  · exact internalRow_of_encodePorts (encodePorts_of_decodePorts (hd.symm.trans h))

/-- Settles O6: by the formats of decodeBytes, none of which is INTERNAL. -/
theorem nothingPresentedDecodesToAnInternalFunction :
    Obligations.NothingPresentedDecodesToAnInternalFunction := by
  intro r i h
  cases r with
  | word bs =>
    rcases decodeBytes_cases bs with ⟨o, a, m, rfl⟩ | ⟨f, rfl⟩ | ⟨sent, resp, rfl⟩ | hd
    · cases h
      rfl
    · exact internalRow_of_decodeFrame h
    · cases h
      rfl
    · cases hd.symm.trans h
  | encode p => exact internalRow_of_encodePorts (encodePorts_of_decodePorts h)
  | hold f => cases h

/-- A drive is the only one it can be rejected for. -/
theorem eq_of_decodePorts_undefined {p q : EncPorts} (h : decodePorts q = .error (.undefinedOpcode p)) :
    q = p := by
  rcases decodePorts_cases q with ⟨i, hd, -⟩ | hd
  · cases hd.symm.trans h
  · cases hd.symm.trans h
    rfl

/-- Whatever way a drive was presented, it is rejected for its opcode only (R37; log 11). -/
theorem decodePorts_of_decodeRequest_undefined {r : Request} {p : EncPorts}
    (h : decodeRequest r = .error (.undefinedOpcode p)) : decodePorts p = .error (.undefinedOpcode p) := by
  cases r with
  | word bs =>
    rcases decodeBytes_cases bs with ⟨o, a, m, rfl⟩ | ⟨f, rfl⟩ | ⟨sent, resp, rfl⟩ | hd
    · cases h
    · rcases decodeFrame_cases f with ⟨i, hd, -⟩ | hd
      · cases hd.symm.trans h
      · have hq : decodePorts ⟨f.opcode, argsOfFrame f⟩ = .error (.undefinedOpcode p) := hd.symm.trans h
        rwa [eq_of_decodePorts_undefined hq] at hq
    · cases h
    · cases hd.symm.trans h
  | encode q =>
    have hq : decodePorts q = .error (.undefinedOpcode p) := h
    rwa [eq_of_decodePorts_undefined hq] at hq
  | hold f => cases h

/-! ### Relays and masks -/

/-- A sum of different powers of two is the number with these bits set. -/
theorem sum_two_pow_eq_ofBits (f : Nat → Bool) (n : Nat) :
    ((List.range n).map fun k => if f k then 2 ^ k else 0).sum = Nat.ofBits fun k : Fin n => f k := by
  induction n generalizing f with
  | zero => rfl
  | succ n ih =>
    have htail : ((List.range n).map fun k => if f (k + 1) then 2 ^ (k + 1) else 0).sum =
        2 * Nat.ofBits fun k : Fin n => f (k + 1) := by
      rw [← ih fun k => f (k + 1), ← List.sum_map_mul_left]
      simp only [mul_ite, mul_zero, pow_succ']
    rw [List.range_succ_eq_map, List.map_cons, List.sum_cons, List.map_map, Nat.ofBits_succ, Nat.add_comm]
    refine congrArg₂ (· + ·) htail ?_
    cases h : f 0 <;> simp [h]

/-- Bit `k` of the data field says whether relay `k+1` is listed (R33, R24). -/
theorem maskOf_getLsbD (sel : List Byte) {k : Nat} (hk : k < 8) :
    (maskOf sel).getLsbD k = true ↔ BitVec.ofNat 8 (k + 1) ∈ sel := by
  have hsum : maskOf sel = BitVec.ofNat 8 (Nat.ofBits fun j : Fin 8 => sel.contains (BitVec.ofNat 8 (j + 1))) := by
    rw [← sum_two_pow_eq_ofBits fun j => sel.contains (BitVec.ofNat 8 (j + 1))]
    rfl
  rw [hsum, BitVec.getLsbD_ofNat, Nat.testBit_ofBits_lt _ _ hk]
  simp [hk]

/-- The relays a mask selects are those of 1..8 whose bit is set (R24, R41). -/
theorem mem_relaysOf {m n : Byte} :
    n ∈ relaysOf m ↔ (1 ≤ n.toNat ∧ n.toNat ≤ 8) ∧ m.getLsbD (n.toNat - 1) = true := by
  have hlist (j : Nat) : j ∈ [1, 2, 3, 4, 5, 6, 7, 8] ↔ 1 ≤ j ∧ j ≤ 8 := by
    simp only [List.mem_cons, List.not_mem_nil, or_false]
    omega
  simp only [relaysOf, List.mem_filterMap, hlist, Option.ite_none_right_eq_some, Option.some.injEq]
  constructor
  · rintro ⟨j, hj, hbit, rfl⟩
    have hback : (BitVec.ofNat 8 j).toNat = j := by
      rw [BitVec.toNat_ofNat]
      omega
    rw [hback]
    exact ⟨hj, hbit⟩
  · rintro ⟨hn, hbit⟩
    exact ⟨n.toNat, hn, hbit, by rw [BitVec.ofNat_toNat, BitVec.setWidth_eq]⟩

theorem ofNat_succ_mem_relaysOf (m : Byte) {k : Nat} (hk : k < 8) :
    BitVec.ofNat 8 (k + 1) ∈ relaysOf m ↔ m.getLsbD k = true := by
  have hback : (BitVec.ofNat 8 (k + 1)).toNat = k + 1 := by
    rw [BitVec.toNat_ofNat]
    omega
  rw [mem_relaysOf, hback, Nat.add_sub_cancel]
  exact and_iff_right (by omega)

/-- A data byte is the mask of the relays it selects (R41). -/
@[simp] theorem maskOf_relaysOf (m : Byte) : maskOf (relaysOf m) = m :=
  BitVec.eq_of_getLsbD_eq fun _ hk =>
    Bool.eq_iff_iff.2 ((maskOf_getLsbD _ hk).trans (ofNat_succ_mem_relaysOf m hk))

@[simp] theorem relaysOf_zero : relaysOf 0#8 = [] := rfl

/-! ### The words of the encode instructions -/

/-- The word of a command frame is decoded as a drive of the ports with the frame's operands (log 10). -/
theorem decodeBytes_frameOf {o : Byte} (h : commandOpcode o) (a d : Byte) :
    decodeBytes (frameOf o a d).toBytes = decodePorts ⟨o, ⟨a, false, 0#8, true, relaysOf d⟩⟩ :=
  decodeFrame_of_command h

@[simp] theorem addressOf_offset_absent (b c : Byte) (present : Bool) (sel : List Byte) :
    addressOf ⟨b, false, c, present, sel⟩ = b := rfl

theorem EncArgs.frameForm_frameForm (o : EncArgs) : o.frameForm.frameForm = o.frameForm := by
  simp [EncArgs.frameForm]

theorem ne_init_of_maskOpcode {o : Byte} (h : maskOpcode o) : o ≠ 1#8 := by
  rcases h with rfl | rfl | rfl <;> decide

theorem encodeBytes_of_init {i : Instr} {p : EncPorts} (hi : encodePorts i = some p) (hinit : p.opcode = 1#8) :
    encodeBytes i = some (frameOf p.opcode p.args.baseAddress 0#8).toBytes := by
  cases i with
  | encInit o =>
    cases hi
    rfl
  | encSet o | encReset o | encToggle o =>
    cases hi
    exact absurd hinit (by simp)
  | _ => cases hi

/-- The rows of the three commands with a relay mask differ in the opcode only (R57 to R59). -/
theorem encodeBytes_of_not_init {i : Instr} {p : EncPorts} (hi : encodePorts i = some p) (hinit : p.opcode ≠ 1#8) :
    i.wellFormed = p.args.wellFormed ∧
      encodeBytes i = some (frameOf p.opcode (addressOf p.args) (maskOf p.args.sel)).toBytes := by
  cases i with
  | encInit o =>
    cases hi
    exact absurd rfl hinit
  | encSet o | encReset o | encToggle o =>
    cases hi
    exact ⟨rfl, rfl⟩
  | _ => cases hi

/-- The word of an encode instruction that a canonical frame stands for is that frame (R65). -/
theorem encodeBytes_of_canonical {f : Frame} {i : Instr} (hf : frameCanonical f = true)
    (hi : encodePorts i = some ⟨f.opcode, argsOfFrame f⟩) : encodeBytes i = some f.toBytes := by
  obtain ⟨hchecksum, hopcode⟩ := (frameCanonical_iff f).1 hf
  have hframe : frameOf f.opcode f.address f.data = f := by rw [frameOf, ← hchecksum]
  rcases hopcode with hm | ⟨hinit, hdata⟩
  · obtain ⟨-, hbytes⟩ := encodeBytes_of_not_init hi (ne_init_of_maskOpcode hm)
    rw [hbytes, argsOfFrame, addressOf_offset_absent, maskOf_relaysOf, hframe]
  · rw [encodeBytes_of_init hi hinit, ← hdata, argsOfFrame, hframe]

/-! ### The round trip -/

theorem decodeBytes_encodeBytes {i : Instr} {bs : List Byte} (h : encodeBytes i = some bs) :
    decodeBytes bs = .ok i.frameForm := by
  cases i with
  | encInit o =>
    cases h
    rw [decodeBytes_frameOf (.inl rfl), relaysOf_zero]
    rfl
  | opdec _ | maskgen _ | addrgen _ _ _ _ | xorsum _ _ _ => cases h
  | _ =>
    cases h
    rfl

theorem Instr.frameForm_frameForm (i : Instr) : i.frameForm.frameForm = i.frameForm := by
  cases i with
  | encSet o | encReset o | encToggle o => simp [Instr.frameForm, o.frameForm_frameForm]
  | _ => rfl

theorem encodeBytes_decodeBytes {bs : List Byte} {i : Instr} (h : decodeBytes bs = .ok i)
    (hcanonical : ∀ p : EncPorts, encodePorts i = some p → ∃ f : Frame, bs = f.toBytes ∧ frameCanonical f = true) :
    encodeBytes i = some bs := by
  rcases decodeBytes_cases bs with ⟨o, a, m, rfl⟩ | ⟨f, rfl⟩ | ⟨sent, resp, rfl⟩ | hd
  · cases h
    rfl
  · rcases decodeFrame_cases f with ⟨j, hd, -, hj⟩ | hd
    · cases hd.symm.trans h
      exact hj
    · have hi : encodePorts i = some ⟨f.opcode, argsOfFrame f⟩ := encodePorts_of_decodePorts (hd.symm.trans h)
      obtain ⟨g, hg, hcan⟩ := hcanonical _ hi
      rw [← Frame.toBytes_injective hg] at hcan
      exact encodeBytes_of_canonical hcan hi
  · cases h
    rfl
  · cases hd.symm.trans h

/-- Settles O7: decoding a word gives the frame form, row by row; the frame form is the word's; and a command frame
word is the word of its drive when it is canonical. -/
theorem wordsOfInstructionsRoundTrip : Obligations.WordsOfInstructionsRoundTrip :=
  ⟨fun _ _ => decodeBytes_encodeBytes, Instr.frameForm_frameForm, fun _ _ => encodeBytes_decodeBytes⟩

end Sys2Proof
end

section
/-! PROOFS. The encode family, continued: which status goes with which error, what the units show, and the frames as
words and as canonical frames. -/

namespace Sys2Proof.Machine

variable {p : EncPorts}

/-! ### The status -/

theorem EncError.code_injective : Function.Injective EncError.code := by
  intro e f h
  cases e <;> cases f <;> simp [EncError.code] at h ⊢

theorem EncError.code_ne_ok (e : EncError) : e.code ≠ 0#3 := by
  cases e <;> decide

theorem EncError.code_le (e : EncError) : e.code.toNat ≤ 5 := by
  cases e <;> decide

/-- The status carries an error's code exactly when that error is reported (R85, R96). -/
theorem encoderAnswers_status_iff {o : EncOut} (h : encoderAnswers p o) (e : EncError) :
    o.status = e.code ↔ e.reported p := by
  rcases h with ⟨f, hf, hstatus, -⟩ | ⟨hno, hstatus, -⟩
  · rw [hstatus, EncError.code_injective.eq_iff]
    exact ⟨fun h => h ▸ hf, fun he => EncError.reported_unique hf he⟩
  · rw [hstatus]
    exact ⟨fun h => absurd h.symm e.code_ne_ok, fun he => absurd he.1 (hno e)⟩

theorem encoderAnswers_frameValid_iff {o : EncOut} (h : encoderAnswers p o) :
    o.frameValid = true ↔ o.status = 0#3 := by
  rcases h with ⟨e, -, hstatus, hvalid⟩ | ⟨-, hstatus, hvalid, -⟩
  · simp [hstatus, hvalid, e.code_ne_ok]
  · simp [hstatus, hvalid]

theorem encoderAnswers_status_le {o : EncOut} (h : encoderAnswers p o) : o.status.toNat ≤ 5 := by
  rcases h with ⟨e, -, hstatus, -⟩ | ⟨-, hstatus, -⟩
  · exact hstatus ▸ e.code_le
  · simp [hstatus]

/-- Settles O15: the outputs are those of an error, with one of the five codes, or those of a frame. -/
theorem frameValidExactlyWhenStatusIsOk : Obligations.FrameValidExactlyWhenStatusIsOk := by
  intro i p s t hi ht
  rw [exec_encode hi] at ht
  cases ht
  exact ⟨encoderAnswers_frameValid_iff (encodeProcedure_answers p s),
    encoderAnswers_status_le (encodeProcedure_answers p s)⟩

/-! ### Which error is reported -/

/-- A missing selector is reported whatever else is wrong with a legal opcode (R87, R96). -/
theorem reported_missingRelaySelector_iff (hm : maskOpcode p.opcode) :
    EncError.missingRelaySelector.reported p ↔ p.args.selPresent = false := by
  refine ⟨fun h => h.1.2, fun hs => ⟨⟨hm, hs⟩, fun f hf => ?_⟩⟩
  cases f with
  | illegalOpcode => exact not_not.2 (.inr hm)
  | missingRelaySelector | invalidRelayNumber | invalidCardOffset | addressOverflow =>
    simp [EncError.priority] at hf

section
variable (hm : maskOpcode p.opcode) (hs : p.args.selPresent = true)
  (hsel : ∀ n ∈ p.args.sel, 1 ≤ n.toNat ∧ n.toNat ≤ 8)
include hm hs hsel

/-- With a legal opcode and a legal selector only the address can be at fault. -/
theorem applies_of_legal_selector {e : EncError} (h : e.applies p) :
    e = .invalidCardOffset ∨ e = .addressOverflow := by
  cases e with
  | illegalOpcode => exact absurd (.inr hm) h
  | missingRelaySelector =>
    obtain ⟨-, hmissing⟩ := h
    simp [hs] at hmissing
  | invalidRelayNumber =>
    obtain ⟨-, -, n, hn, hbad⟩ := h
    have := hsel n hn
    omega
  | invalidCardOffset => exact .inl rfl
  | addressOverflow => exact .inr rfl

theorem reported_invalidCardOffset (ho : p.args.offsetPresent = true) (hc : p.args.cardOffset = 0#8) :
    EncError.invalidCardOffset.reported p := by
  refine ⟨⟨hm, ho, hc⟩, fun f hf happ => ?_⟩
  rcases applies_of_legal_selector hm hs hsel happ with rfl | rfl <;> simp [EncError.priority] at hf

/-- A sum above 255 has an offset other than 0, so no earlier check fails (R90, R96). -/
theorem reported_addressOverflow (ho : p.args.offsetPresent = true)
    (hover : 255 < p.args.baseAddress.toNat + p.args.cardOffset.toNat - 1) :
    EncError.addressOverflow.reported p := by
  refine ⟨⟨hm, ho, hover⟩, fun f hf happ => ?_⟩
  rcases applies_of_legal_selector hm hs hsel happ with rfl | rfl
  · obtain ⟨-, -, hc⟩ := happ
    have hb := p.args.baseAddress.isLt
    rw [hc, BitVec.toNat_ofNat] at hover
    omega
  · exact lt_irrefl _ hf

end

theorem exec_status_missing_iff {i : Instr} (hi : encodePorts i = some p) (hm : maskOpcode p.opcode) (s : State) :
    ∃ t, exec i s = .next t ∧ (t.encOut.status = 2#3 ↔ p.args.selPresent = false) :=
  ⟨_, exec_encode hi s,
    (encoderAnswers_status_iff (encodeProcedure_answers p s) .missingRelaySelector).trans
      (reported_missingRelaySelector_iff hm)⟩

/-- Settles O23: status 2 says that the error is reported, which for the three commands says that the selector is
absent; Init answers OK. -/
theorem missingSelectorExactlyWhenAbsent : Obligations.MissingSelectorExactlyWhenAbsent := by
  intro o s
  refine ⟨exec_status_missing_iff (p := ⟨6#8, o⟩) rfl (.inl rfl) s,
    exec_status_missing_iff (p := ⟨7#8, o⟩) rfl (.inr (.inl rfl)) s,
    exec_status_missing_iff (p := ⟨8#8, o⟩) rfl (.inr (.inr rfl)) s, _, exec_encode rfl s, ?_⟩
  rw [encodeProcedure_init rfl, returnFrame_encOut]
  simp

/-- Settles O24: the reported error gives the status, and ADDRGEN's own fault is the same. -/
theorem badOffsetAndOverflowAreReported : Obligations.BadOffsetAndOverflowAreReported := by
  intro i p s hi hopcode hs hsel ho
  have hm : maskOpcode p.opcode := maskOpcode_of_legal (opdecLegal_encodePorts hi) hopcode
  have hinit : opdecIsInit p.opcode = false := ((maskOpcode_iff _).1 hm).2
  have hanswers := encodeProcedure_answers p s
  refine ⟨fun hc => ?_, fun hover => ?_⟩
  · obtain ⟨hstatus, hvalid⟩ :=
      encoderAnswers_of_reported hanswers (reported_invalidCardOffset hm hs hsel ho hc)
    refine ⟨_, exec_encode hi s, hstatus, hvalid, ?_⟩
    rw [encodeProcedure_addrgen, driveEncoder_addrgen, hinit]
    exact addrgenResult_eq_invalidCardOffset_iff.2 ⟨ho, hc⟩
  · obtain ⟨hstatus, hvalid⟩ :=
      encoderAnswers_of_reported hanswers (reported_addressOverflow hm hs hsel ho hover)
    refine ⟨_, exec_encode hi s, hstatus, hvalid, ?_⟩
    rw [encodeProcedure_addrgen, driveEncoder_addrgen, hinit]
    exact addrgenResult_eq_addressOverflow_iff.2 ⟨ho, hover⟩

/-! ### What an encode transaction leaves unchanged, and what its units show -/

/-- Whatever an encode transaction answers, each unit shows the inputs the ports give it (R79). -/
theorem encodeProcedure_drivenBy (p : EncPorts) (s : State) : (s.encodeProcedure p).encoderDrivenBy p := by
  rw [encodeProcedure_eq]
  exact ⟨rfl, rfl, rfl, rfl, rfl, rfl, rfl, rfl, fun _ ha => coreAddress_eq ha, rfl, rfl, rfl, rfl, rfl⟩

/-- Settles O16: by the frame of R55's procedure. -/
theorem encodeLeavesEverythingElseUnchanged : Obligations.EncodeLeavesEverythingElseUnchanged := by
  refine ⟨fun i p s t hi ht => ?_, fun p s rest hp => ⟨_, step_encode hp, ?_⟩⟩
  · rw [exec_encode hi] at ht
    cases ht
    simp
  · simp

/-- Settles O2: the rejected drive runs R55, whose first check fails. -/
theorem stepOnAnUndefinedOpcodeReportsIllegalOpcode :
    Obligations.StepOnAnUndefinedOpcodeReportsIllegalOpcode := by
  intro s r rest p hp hd
  have hnot : ¬ commandOpcode p.opcode :=
    (decodePorts_eq_undefined_iff p).1 (decodePorts_of_decodeRequest_undefined hd)
  have hlegal : opdecLegal p.opcode = false := by rwa [← Bool.not_eq_true, opdecLegal_iff]
  have hinit : opdecIsInit p.opcode = false := by
    rw [← Bool.not_eq_true, opdecIsInit_iff]
    exact fun h => hnot (.inl h)
  refine ⟨_, step_of_decode_error hp hd, ?_, ?_, ?_, encodeProcedure_drivenBy p _, ?_, ?_, ?_⟩
  · rw [encodeProcedure_illegal hlegal]
    rfl
  · rw [encodeProcedure_illegal hlegal]
    rfl
  · rw [encodeProcedure_opdec, driveEncoder_opdec, hlegal, hinit]
  · rw [encodeProcedure_host, driveEncoder_host]
  · rw [encodeProcedure_valIn, driveEncoder_valIn]
  · rw [encodeProcedure_valOut, driveEncoder_valOut]

/-- Where no error applies, ADDRGEN's result is the address on the core (R13). -/
theorem addrgenResult_of_no_error (h : ∀ e : EncError, ¬ e.applies p) :
    addrgenResult p.args.baseAddress p.args.offsetPresent p.args.cardOffset (opdecIsInit p.opcode) =
      .address (coreAddress p) := by
  cases hr : addrgenResult p.args.baseAddress p.args.offsetPresent p.args.cardOffset (opdecIsInit p.opcode) with
  | address a => rw [coreAddress_eq hr]
  | raised e =>
    have happ : e.applies p := by
      rw [← encCheckFails_driveEncoder_iff (s := .reset) (opdecLegal_of_no_error h)]
      rcases addrgenResult_raised hr with rfl | rfl <;> simp [State.encCheckFails, hr]
    exact absurd happ (h e)

theorem maskgenBad_of_no_error (h : ∀ e : EncError, ¬ e.applies p) (hi : p.opcode ≠ 1#8) :
    maskgenBad p.args.sel = false := by
  have hm : maskOpcode p.opcode := maskOpcode_of_legal (opdecLegal_of_no_error h) hi
  have hs : p.args.selPresent = true := by simpa using fun hs => h .missingRelaySelector ⟨hm, hs⟩
  rw [← Bool.not_eq_true, maskgenBad_iff]
  exact fun hb => h .invalidRelayNumber ⟨hm, hs, hb⟩

/-- Settles O17: a valid frame is the core's, and the core has it from the units. -/
theorem encodeIsTheCompositionOfItsUnits : Obligations.EncodeIsTheCompositionOfItsUnits := by
  intro i p s t hi ht
  rw [exec_encode hi] at ht
  cases ht
  refine ⟨encodeProcedure_drivenBy p s, fun hvalid => ?_⟩
  obtain ⟨hno, -⟩ := encoderAnswers_of_frameValid (encodeProcedure_answers p s) hvalid
  have hcanonical : canonicalBit p.opcode (coreMask p) = true := core_canonical (s := s) hno
  rw [encodeProcedure_frame_eq_core hvalid]
  refine ⟨?_, ?_, fun hi => ?_, fun hi => (core_init hi).2, ?_, ?_⟩
  · rw [encodeProcedure_opdec, driveEncoder_opdec, opdecLegal_of_no_error hno]
    rfl
  · rw [encodeProcedure_addrgen]
    exact addrgenResult_of_no_error hno
  · have hinit : opdecIsInit p.opcode = false := by rwa [← Bool.not_eq_true, opdecIsInit_iff]
    rw [encodeProcedure_maskgen, driveEncoder_maskgen, driveEncoder_core, maskgenBad_of_no_error hno hi,
      coreMask_eq hinit]
  · rw [encodeProcedure_xorsum]
    rfl
  · rw [encodeProcedure_core, driveEncoder_core, hcanonical]

/-! ### Legal operands -/

theorem relayLegal_iff (n : Byte) : relayLegal n = true ↔ 1 ≤ n.toNat ∧ n.toNat ≤ 8 := by
  simp [relayLegal]

/-- Legal operands are those to which no error of the three commands applies (R57). -/
theorem not_applies_of_wellFormed (hm : maskOpcode p.opcode) (h : p.args.wellFormed = true) (e : EncError) :
    ¬ e.applies p := by
  simp only [EncArgs.wellFormed, Bool.and_eq_true, List.all_eq_true, relayLegal_iff] at h
  obtain ⟨⟨⟨hs, hsel⟩, hoffset⟩, hfits⟩ := h
  intro happ
  rcases applies_of_legal_selector hm hs hsel happ with rfl | rfl
  · obtain ⟨-, ho, hc⟩ := happ
    simp [offsetLegal, ho, hc] at hoffset
  · obtain ⟨-, ho, hover⟩ := happ
    simp [addressFits, offsetLegal, ho] at hfits hoffset
    omega

theorem not_applies_of_init (hi : p.opcode = 1#8) (e : EncError) : ¬ e.applies p := by
  cases e <;> simp [EncError.applies, commandOpcode, maskOpcode, hi]

/-- The command frame is answered wherever no error applies. -/
theorem exec_frame_of_no_error {i : Instr} (hi : encodePorts i = some p) (hno : ∀ e : EncError, ¬ e.applies p)
    (s : State) : ∃ t, exec i s = .next t ∧ t.encOut.status = 0#3 ∧ t.encOut.frameValid = true ∧
      commandFrame p t.encOut.frame :=
  ⟨_, exec_encode hi s, encoderAnswers_of_no_error (encodeProcedure_answers p s) hno⟩

/-- Settles O13: no error applies to legal operands. -/
theorem setResetToggleAnswerTheirFrame : Obligations.SetResetToggleAnswerTheirFrame := fun o s hwf =>
  ⟨exec_frame_of_no_error rfl (not_applies_of_wellFormed (p := ⟨6#8, o⟩) (.inl rfl) hwf) s,
    exec_frame_of_no_error rfl (not_applies_of_wellFormed (p := ⟨7#8, o⟩) (.inr (.inl rfl)) hwf) s,
    exec_frame_of_no_error rfl (not_applies_of_wellFormed (p := ⟨8#8, o⟩) (.inr (.inr rfl)) hwf) s⟩

/-! ### Frames and words -/

/-- Where the sum fits, the table's address byte is the address of R32. -/
theorem addressOf_toNat (hm : maskOpcode p.opcode) (hno : ∀ e : EncError, ¬ e.applies p) :
    (addressOf p.args).toNat = frameAddress p := by
  have hinit : p.opcode ≠ 1#8 := ne_init_of_maskOpcode hm
  cases ho : p.args.offsetPresent with
  | false => simp [addressOf, frameAddress, ho]
  | true =>
    have hc : p.args.cardOffset.toNat ≠ 0 := fun hc =>
      hno .invalidCardOffset ⟨hm, ho, BitVec.eq_of_toNat_eq hc⟩
    have hfit : ¬ 255 < p.args.baseAddress.toNat + p.args.cardOffset.toNat - 1 := fun hover =>
      hno .addressOverflow ⟨hm, ho, hover⟩
    rw [addressOf, frameAddress, if_pos ho, if_neg (by simp [hinit, ho]), BitVec.toNat_add, BitVec.toNat_sub,
      BitVec.toNat_ofNat]
    omega

/-- The table's frame for a command with a relay mask is the command frame of R31 to R34. -/
theorem commandFrame_frameOf (hm : maskOpcode p.opcode) (hno : ∀ e : EncError, ¬ e.applies p) :
    commandFrame p (frameOf p.opcode (addressOf p.args) (maskOf p.args.sel)) := by
  have hinit : p.opcode ≠ 1#8 := ne_init_of_maskOpcode hm
  exact ⟨rfl, addressOf_toNat hm hno,
    fun _ hk => (maskOf_getLsbD _ hk).trans (and_iff_right hinit).symm, rfl⟩

/-- Init's frame has the base address and selects no relay (R56). -/
theorem commandFrame_frameOf_init (h : p.opcode = 1#8) :
    commandFrame p (frameOf p.opcode p.args.baseAddress 0#8) :=
  ⟨rfl, by simp [frameOf, frameAddress, h], fun _ _ => by simp [frameOf, h], rfl⟩

/-- With legal operands no error applies, and the table's word is the command frame. -/
theorem wellFormed_frame {i : Instr} (hi : encodePorts i = some p) (hwf : i.wellFormed = true) :
    (∀ e : EncError, ¬ e.applies p) ∧ ∃ f, encodeBytes i = some f.toBytes ∧ commandFrame p f := by
  by_cases hinit : p.opcode = 1#8
  · exact ⟨not_applies_of_init hinit, _, encodeBytes_of_init hi hinit, commandFrame_frameOf_init hinit⟩
  · obtain ⟨hargs, hbytes⟩ := encodeBytes_of_not_init hi hinit
    have hm : maskOpcode p.opcode := maskOpcode_of_legal (opdecLegal_encodePorts hi) hinit
    have hno := not_applies_of_wellFormed hm (hargs ▸ hwf)
    exact ⟨hno, _, hbytes, commandFrame_frameOf hm hno⟩

/-- Settles O26: both the encoder and the table give the one command frame of the operands. -/
theorem encoderEmitsTheWordOfItsRow : Obligations.EncoderEmitsTheWordOfItsRow := by
  intro i p s hi hwf
  obtain ⟨hno, f, hbytes, hf⟩ := wellFormed_frame hi hwf
  obtain ⟨t, ht, -, hvalid, hframe⟩ := exec_frame_of_no_error hi hno s
  exact ⟨t, ht, hvalid, commandFrame_unique hframe hf ▸ hbytes⟩

/-! ### Canonical frames -/

theorem relaysOf_legal (m : Byte) : (relaysOf m).all relayLegal = true :=
  List.all_eq_true.2 fun n hn => (relayLegal_iff n).2 (mem_relaysOf.1 hn).1

/-- A canonical frame is the command frame of the operands it stands for, and these raise nothing (R65). -/
theorem commandFrame_argsOfFrame {f : Frame} (h : frameCanonical f = true) :
    (∀ e : EncError, ¬ e.applies ⟨f.opcode, argsOfFrame f⟩) ∧ commandFrame ⟨f.opcode, argsOfFrame f⟩ f := by
  obtain ⟨hchecksum, hm | ⟨hinit, hdata⟩⟩ := (frameCanonical_iff f).1 h
  · have hinit : f.opcode ≠ 1#8 := ne_init_of_maskOpcode hm
    refine ⟨not_applies_of_wellFormed hm ?_, rfl, by simp [frameAddress, argsOfFrame], fun k hk => ?_, hchecksum⟩
    · simp [EncArgs.wellFormed, argsOfFrame, offsetLegal, addressFits, relaysOf_legal]
    · exact (ofNat_succ_mem_relaysOf f.data hk).symm.trans (and_iff_right hinit).symm
  · exact ⟨not_applies_of_init hinit, rfl, by simp [frameAddress, argsOfFrame],
      fun k _ => by simp [hdata, hinit], hchecksum⟩

/-- The frame that answers the inputs is the whole of the encoder's output. -/
theorem encodeProcedure_encOut_of_commandFrame {f : Frame} (hno : ∀ e : EncError, ¬ e.applies p)
    (hf : commandFrame p f) (s : State) : (s.encodeProcedure p).encOut = ⟨0#3, true, f⟩ := by
  obtain ⟨-, hvalid, -⟩ := encoderAnswers_of_no_error (encodeProcedure_answers p s) hno
  rw [encodeProcedure_frame_eq_core hvalid, commandFrame_unique (commandFrame_core hno) hf]

theorem commandOpcode_of_frameCanonical {f : Frame} (h : frameCanonical f = true) : commandOpcode f.opcode := by
  obtain ⟨-, hm | ⟨hinit, -⟩⟩ := (frameCanonical_iff f).1 h
  · exact .inr hm
  · exact .inl hinit

/-- Settles O25: a valid frame answers its inputs, which makes it canonical; a canonical frame is what the operands
it stands for are answered with. -/
theorem canonicalFramesAreExactlyTheEncodersFrames :
    Obligations.CanonicalFramesAreExactlyTheEncodersFrames := by
  refine ⟨fun i p s t hi ht hvalid => ?_, fun f s hf => ?_⟩
  · rw [exec_encode hi] at ht
    cases ht
    exact encoderAnswers_frameCanonical (encodeProcedure_answers p s) hvalid
  · have hcommand := commandOpcode_of_frameCanonical hf
    obtain ⟨i, hi⟩ := exists_encodePorts (p := ⟨f.opcode, argsOfFrame f⟩) hcommand
    have hdecode : decodeBytes f.toBytes = .ok i := by
      rw [decodeBytes_toBytes, decodeFrame_of_command hcommand, decodePorts_of_encodePorts hi]
    obtain ⟨hno, hf⟩ := commandFrame_argsOfFrame hf
    exact ⟨i, _, hdecode, exec_encode hi s, encodeProcedure_encOut_of_commandFrame hno hf s⟩

end Sys2Proof.Machine
end

section
/-! PROOFS. The validate family, continued: the verdict as a relation, the bytes it reads, the responses it accepts,
and the response classes. -/

namespace Sys2Proof.Machine

variable {s : State}

/-! ### The verdict -/

/-- VALIDATE changes the validator's ports only, to a verdict of R74's table. -/
theorem validateProcedure_judges (sent resp : Frame) (s : State) :
    ∃ o : ValOut, s.validateProcedure sent resp = { s with valIn := ⟨sent, resp⟩, valOut := o } ∧
      validatorAnswers ⟨sent, resp⟩ o :=
  ⟨_, validateProcedure_eq sent resp s, validateProcedure_answers sent resp s⟩

/-- Settles O33: the verdict is the witness. -/
theorem validateReportsTheFirstFailingStage : Obligations.ValidateReportsTheFirstFailingStage := by
  intro sent resp s
  obtain ⟨o, heq, hanswers⟩ := validateProcedure_judges sent resp s
  exact ⟨o, congrArg _ heq, hanswers⟩

/-- The status is OK exactly on the three conditions of R75. -/
theorem validateProcedure_status_iff (sent resp : Frame) (s : State) :
    (s.validateProcedure sent resp).valOut.status = 0#2 ↔
      resp.opcode = ~~~ sent.opcode ∧ (sent.address = 0#8 ∨ resp.address = sent.address) ∧
        resp.checksum = resp.opcode ^^^ resp.address ^^^ resp.data := by
  rw [validateProcedure_status_eq_ok_iff, opOk_iff, addrOk_iff, csumOk_iff]

theorem ne_not_self (x : Byte) : x ≠ ~~~ x := fun h => by
  simpa using congrArg (·.getLsbD 0) h

/-- Settles O37: no byte is its own complement, so stage 1 fails. -/
theorem echoOfTheCommandIsUnexpectedOpcode : Obligations.EchoOfTheCommandIsUnexpectedOpcode := by
  intro sent resp s hecho
  have hop : opOk sent resp = false := by
    rw [← Bool.not_eq_true, opOk_iff, hecho]
    exact ne_not_self _
  refine ⟨_, rfl, ?_⟩
  rw [validateProcedure_valOut, if_pos hop, hecho, expectedOpcode_eq]
  exact ⟨rfl, rfl, rfl, rfl⟩

/-! ### Which bytes are read -/

theorem xor_xor_cancel_pair (x y z : Byte) : x ^^^ y ^^^ z ^^^ y ^^^ z = x :=
  calc x ^^^ y ^^^ z ^^^ y ^^^ z
    _ = x ^^^ ((y ^^^ z) ^^^ (y ^^^ z)) := by simp only [BitVec.xor_assoc]
    _ = x := by rw [BitVec.xor_self, BitVec.xor_zero]

/-- Stage 3 reads the last three bytes of a response through their XOR only (R76). -/
theorem csumOk_iff_xor (resp : Frame) :
    csumOk resp = true ↔ resp.checksum ^^^ resp.address ^^^ resp.data = resp.opcode := by
  rw [csumOk_iff]
  constructor
  · intro h
    rw [h, xor_xor_cancel_pair]
  · intro h
    rw [← h, xor_xor_cancel_pair]

/-- Settles O35: the stages are the same, and with them the outputs. -/
theorem noOtherByteIsInspected : Obligations.NoOtherByteIsInspected := by
  refine ⟨fun sent sent' resp s t u ho ha ht hu => ?_, fun sent resp resp' s t u ho ha hx ht hu => ?_⟩
  · have hexpected : expectedOpcode sent' = expectedOpcode sent := by rw [expectedOpcode, expectedOpcode, ho]
    have hop : opOk sent' resp = opOk sent resp := by rw [opOk, opOk, hexpected]
    have haddr : addrOk sent' resp = addrOk sent resp := by rw [addrOk, addrOk, ha]
    cases ht
    cases hu
    rw [validateProcedure_valOut, validateProcedure_valOut, hop, haddr, hexpected, ha]
    split_ifs <;> simp
  · have hop : opOk sent resp' = opOk sent resp := by rw [opOk, opOk, ho]
    have haddr : addrOk sent resp' = addrOk sent resp := by
      rw [Bool.eq_iff_iff, addrOk_iff, addrOk_iff]
      rcases ha with ha | ha
      · rw [ha]
      · simp [ha]
    have hcsum : csumOk resp' = csumOk resp := by
      rw [Bool.eq_iff_iff, csumOk_iff_xor, csumOk_iff_xor, hx, ho]
    cases ht
    cases hu
    rw [validateProcedure_valOut, validateProcedure_valOut, hop, haddr, hcsum]
    split_ifs <;> simp

/-- Three bytes of a frame with a right checksum determine the fourth (R53). -/
theorem byte_eq_of_csumOk {f g : Frame} {k : Fin 4} (hf : csumOk f = true) (hg : csumOk g = true)
    (hsame : ∀ j : Fin 4, j ≠ k → g.byte j = f.byte j) : g.byte k = f.byte k := by
  rw [csumOk_iff] at hf hg
  have hbyte (j : Fin 4) (hj : j ≠ k := by decide) : g.byte j = f.byte j := hsame j hj
  match k with
  | 0 =>
    have ha : g.address = f.address := hbyte 1
    have hd : g.data = f.data := hbyte 2
    have hc : g.checksum = f.checksum := hbyte 3
    rw [hc, hf, ha, hd] at hg
    exact (BitVec.xor_left_inj _).1 ((BitVec.xor_left_inj _).1 hg.symm)
  | 1 =>
    have ho : g.opcode = f.opcode := hbyte 0
    have hd : g.data = f.data := hbyte 2
    have hc : g.checksum = f.checksum := hbyte 3
    rw [hc, hf, ho, hd] at hg
    exact (BitVec.xor_right_inj _).1 ((BitVec.xor_left_inj _).1 hg.symm)
  | 2 =>
    have ho : g.opcode = f.opcode := hbyte 0
    have ha : g.address = f.address := hbyte 1
    have hc : g.checksum = f.checksum := hbyte 3
    rw [hc, hf, ho, ha] at hg
    exact (BitVec.xor_right_inj _).1 hg.symm
  | 3 =>
    have ho : g.opcode = f.opcode := hbyte 0
    have ha : g.address = f.address := hbyte 1
    have hd : g.data = f.data := hbyte 2
    rw [ho, ha, hd, ← hf] at hg
    exact hg

/-- Settles O32: were the checksum right again, the changed byte would be the old one. -/
theorem changingOneByteFailsTheChecksum : Obligations.ChangingOneByteFailsTheChecksum := by
  intro f g sent k s t hf hchanged hsame ht
  have hcsum : csumOk g = false := by
    rw [← Bool.not_eq_true]
    exact fun hg => hchanged (byte_eq_of_csumOk hf hg hsame)
  cases ht
  rw [Ne, validateProcedure_status_eq_ok_iff, hcsum]
  obtain ⟨-, -, hflag⟩ := validateProcedure_flags sent g s
  exact ⟨hflag.trans hcsum, by simp⟩

/-! ### How many responses validate -/

theorem frameOf_injective (o : Byte) : Function.Injective fun x : Byte × Byte => frameOf o x.1 x.2 := by
  rintro ⟨a, d⟩ ⟨a', d'⟩ h
  simp only [frameOf, Frame.mk.injEq] at h
  obtain ⟨-, rfl, rfl, -⟩ := h
  rfl

theorem card_byte : Nat.card Byte = 256 := by
  rw [Nat.card_congr BitVec.equivFin.toEquiv, Nat.card_fin]
  rfl

/-- The responses that validate have the complement of the sent opcode, an address that agrees, any data byte, and
the checksum of these (R77). -/
theorem exec_validate_ok_iff (sent resp : Frame) (s : State) :
    (∃ t, exec (.validate sent resp) s = .next t ∧ t.valOut.status = 0#2) ↔
      ∃ a d : Byte, (sent.address = 0#8 ∨ a = sent.address) ∧ frameOf (~~~ sent.opcode) a d = resp := by
  constructor
  · rintro ⟨t, ht, hstatus⟩
    cases ht
    obtain ⟨ho, ha, hc⟩ := (validateProcedure_status_iff sent resp s).1 hstatus
    refine ⟨resp.address, resp.data, ha, ?_⟩
    rw [frameOf, ← ho, ← hc]
  · rintro ⟨a, d, ha, rfl⟩
    exact ⟨_, rfl, (validateProcedure_status_iff sent _ s).2 ⟨rfl, ha, rfl⟩⟩

/-- What is parametrised without repetition is counted by its parameters. -/
theorem card_subtype_eq_of_range {α β : Type} {P : β → Prop} {f : α → β} (hf : Function.Injective f)
    (hrange : ∀ b, P b ↔ b ∈ Set.range f) : Nat.card { b // P b } = Nat.card α :=
  (Nat.card_congr (Equiv.subtypeEquivRight hrange)).trans (Nat.card_range_of_injective hf)

/-- Settles O36: the accepted responses are counted by their free bytes, data and (behind sent address 0) address. -/
theorem countOfValidatingResponses : Obligations.CountOfValidatingResponses := by
  intro sent s
  simp only [exec_validate_ok_iff]
  have hinj := frameOf_injective (~~~ sent.opcode)
  split_ifs with hzero
  · rw [card_subtype_eq_of_range hinj (by simp [hzero]), Nat.card_prod, card_byte]
  · rw [card_subtype_eq_of_range (hinj.comp (Prod.mk_right_injective sent.address)) (by simp [hzero]), card_byte]

/-! ### The response classes -/

/-- A response that is presented is judged against the frame the host holds (log 12, log 21). -/
theorem respond_judges (resp : Frame) (s : State) :
    ∃ o : ValOut, Host.Outcome.next (s.respond resp) =
        (.next { s with valIn := ⟨s.host.held, resp⟩, valOut := o } : Host.Outcome State Fault Refusal) ∧
      validatorAnswers ⟨s.host.held, resp⟩ o := by
  obtain ⟨o, heq, hanswers⟩ := validateProcedure_judges s.host.held resp s
  exact ⟨o, congrArg _ heq, hanswers⟩

/-- Settles O38: the four classes differ in their first byte only. -/
theorem acknowledgementsAreJudgedAgainstTheSentFrame :
    Obligations.AcknowledgementsAreJudgedAgainstTheSentFrame := fun a d c s =>
  ⟨respond_judges ⟨254#8, a, d, c⟩ s, respond_judges ⟨249#8, a, d, c⟩ s, respond_judges ⟨248#8, a, d, c⟩ s,
    respond_judges ⟨247#8, a, d, c⟩ s⟩

/-- A response of the class of opcode `x` validates for a held frame with this opcode only (R35, R71). -/
theorem respond_status_iff {r x : Byte} (hr : r = ~~~ x) (a d c : Byte) (s : State) :
    (s.respond ⟨r, a, d, c⟩).valOut.status = 0#2 ↔ s.host.held.opcode = x ∧
      (s.host.held.address = 0#8 ∨ a = s.host.held.address) ∧ c = r ^^^ a ^^^ d := by
  rw [State.respond, validateProcedure_status_iff, hr]
  simp only [BitVec.not_inj, eq_comm]

/-- Settles O39: the classes are the complements of the four opcodes. -/
theorem acknowledgementOfTheSentCommandValidates : Obligations.AcknowledgementOfTheSentCommandValidates :=
  fun a d c s =>
    ⟨⟨_, rfl, respond_status_iff (by decide) a d c s⟩, ⟨_, rfl, respond_status_iff (by decide) a d c s⟩,
      ⟨_, rfl, respond_status_iff (by decide) a d c s⟩, ⟨_, rfl, respond_status_iff (by decide) a d c s⟩⟩

/-- A word whose first byte is the complement of a command's opcode is presented as a response (R35). -/
theorem decodeFrame_of_response {f : Frame} (h : commandOpcode (~~~ f.opcode)) :
    ∃ i, decodeFrame f = .ok i ∧ ∀ s : State, exec i s = .next (s.respond f) := by
  obtain ⟨o, a, d, c⟩ := f
  have hback : o = ~~~ ~~~ o := BitVec.not_not.symm
  rcases h with h | h | h | h
  all_goals
    rw [h] at hback
    rw [hback]
    exact ⟨_, rfl, fun _ => rfl⟩

/-- Settles O46: the first step is the host's alone; the second decodes the word to a response, which is judged
against the frame just held. -/
theorem aResponseIsJudgedAgainstTheFrameTheHostHolds :
    Obligations.AResponseIsJudgedAgainstTheFrameTheHostHolds := by
  intro s sent o a d c rest hp hclass
  obtain ⟨i, hd, hi⟩ := decodeFrame_of_response (f := ⟨o, a, d, c⟩) hclass
  obtain ⟨out, hout, hanswers⟩ := respond_judges ⟨o, a, d, c⟩ { s with host := ⟨rest, sent⟩ }
  refine ⟨out, step_of_decode_error hp rfl, ?_, hanswers⟩
  have hdecode : decodeRequest (.word [o, a, d, c]) = .ok i := hd
  rw [step_of_decode_ok rfl hdecode, hi]
  exact hout

end Sys2Proof.Machine
end

section
/-! PROOFS. The whole machine: a transaction drives some bundles of wires with values that its inputs determine, and
leaves the others alone (R2, R10, R27, R28). -/

namespace Sys2Proof.Machine

/-! ### What a transaction drives -/

/-- The bundles of wires a transaction drives, each with its new value; `none` is a bundle it leaves alone. -/
structure Drive where
  encIn   : Option EncPorts := none
  encOut  : Option EncOut := none
  core    : Option CoreWires := none
  valIn   : Option ValIn := none
  valOut  : Option ValOut := none
  opdec   : Option OpdecWires := none
  maskgen : Option MaskgenWires := none
  addrgen : Option AddrgenWires := none
  xorsum  : Option XorsumWires := none

def Drive.apply (w : Drive) (s : State) : State :=
  { host    := s.host
    encIn   := w.encIn.getD s.encIn
    encOut  := w.encOut.getD s.encOut
    core    := w.core.getD s.core
    valIn   := w.valIn.getD s.valIn
    valOut  := w.valOut.getD s.valOut
    opdec   := w.opdec.getD s.opdec
    maskgen := w.maskgen.getD s.maskgen
    addrgen := w.addrgen.getD s.addrgen
    xorsum  := w.xorsum.getD s.xorsum }

/-- All bundles of the encoder, as the state `t` shows them. -/
def Drive.encoder (t : State) : Drive :=
  { encIn := some t.encIn, encOut := some t.encOut, core := some t.core, opdec := some t.opdec
    maskgen := some t.maskgen, addrgen := some t.addrgen, xorsum := some t.xorsum }

theorem getD_getD_self {α : Type} (o : Option α) (a : α) : o.getD (o.getD a) = o.getD a := by
  cases o with
  | none => rfl
  | some _ => rfl

/-- Driving the same wires with the same values again changes nothing. -/
theorem Drive.apply_apply (w : Drive) (s : State) : w.apply (w.apply s) = w.apply s := by
  simp only [Drive.apply, getD_getD_self]

theorem keptOrSame_of_getD {α : Type} {wire : State → α} {s s' t t' : State} (o : Option α)
    (h : wire t = o.getD (wire s)) (h' : wire t' = o.getD (wire s')) : State.keptOrSame wire s s' t t' := by
  cases o with
  | none => exact .inl ⟨h, h'⟩
  | some _ => exact .inr (h.trans h'.symm)

/-! ### Every instruction is such a drive -/

/-- An encode transaction drives every bundle of the encoder, and from every state with the same values. -/
theorem encodeProcedure_eq_apply (p : EncPorts) (s : State) :
    s.encodeProcedure p = (Drive.encoder (State.reset.encodeProcedure p)).apply s := by
  rw [encodeProcedure_eq, encodeProcedure_encOut p s .reset, encodeProcedure_eq p .reset]
  rfl

theorem validateProcedure_valOut_eq (sent resp : Frame) (s s' : State) :
    (s.validateProcedure sent resp).valOut = (s'.validateProcedure sent resp).valOut := by
  rw [validateProcedure_valOut, validateProcedure_valOut]

/-- A validator's transaction drives its ports, with values that the two frames determine. -/
theorem exec_validatorSide {i : Instr} (h : validatorSide i = true) (held : Frame) :
    ∃ (v : ValIn) (o : ValOut), ∀ s : State, s.host.held = held →
      exec i s = .next { s with valIn := v, valOut := o } := by
  obtain ⟨sent, resp, hi⟩ := exec_validator h
  refine ⟨⟨sent held, resp⟩, (State.reset.validateProcedure (sent held) resp).valOut, ?_⟩
  rintro s rfl
  rw [hi, validateProcedure_eq, validateProcedure_valOut_eq _ _ s .reset]

/-- An instruction of the encoder's side drives no port of the validator, and its values depend on its operands
only. -/
theorem exec_encoderSide {i : Instr} (h : validatorSide i = false) :
    ∃ w : Drive, w.valIn = none ∧ w.valOut = none ∧ ∀ s : State, exec i s = .next (w.apply s) := by
  cases i with
  | encInit o | encSet o | encReset o | encToggle o =>
    exact ⟨_, rfl, rfl, fun s => (exec_encode rfl s).trans (congrArg _ (encodeProcedure_eq_apply _ s))⟩
  | frameRaw o a m =>
    exact ⟨{ core := some ⟨o, a, m, ⟨o, a, m, o ^^^ a ^^^ m⟩, canonicalBit o m⟩
             xorsum := some ⟨o, a, m, o ^^^ a ^^^ m⟩ }, rfl, rfl, fun _ => rfl⟩
  | opdec o => exact ⟨{ opdec := some ⟨o, opdecLegal o, opdecIsInit o⟩ }, rfl, rfl, fun _ => rfl⟩
  | maskgen sel => exact ⟨{ maskgen := some ⟨sel, maskgenMask sel, maskgenBad sel⟩ }, rfl, rfl, fun _ => rfl⟩
  | addrgen b p c n =>
    exact ⟨{ addrgen := some ⟨b, p, c, n, addrgenResult b p c n⟩ }, rfl, rfl, fun _ => rfl⟩
  | xorsum a b c => exact ⟨{ xorsum := some ⟨a, b, c, a ^^^ b ^^^ c⟩ }, rfl, rfl, fun _ => rfl⟩
  | validate _ _ | ackInit _ _ _ | ackSet _ _ _ | ackReset _ _ _ | ackToggle _ _ _ => cases h

/-- Every instruction drives wires with values that its operands and the frame the host holds determine. -/
theorem exec_eq_apply (i : Instr) (held : Frame) :
    ∃ w : Drive, ∀ s : State, s.host.held = held → exec i s = .next (w.apply s) := by
  cases h : validatorSide i with
  | true =>
    obtain ⟨v, o, hi⟩ := exec_validatorSide h held
    exact ⟨{ valIn := some v, valOut := some o }, hi⟩
  | false =>
    obtain ⟨w, -, -, hw⟩ := exec_encoderSide h
    exact ⟨w, fun s _ => hw s⟩

/-! ### The statements -/

/-- Settles O42: the second time the same values are driven again. -/
theorem repeatingATransactionChangesNothing : Obligations.RepeatingATransactionChangesNothing := by
  intro i s
  obtain ⟨w, hw⟩ := exec_eq_apply i s.host.held
  refine ⟨w.apply s, hw s rfl, ?_⟩
  rw [hw (w.apply s) rfl, Drive.apply_apply]

/-- Settles O47: from both states the same bundles are driven with the same values. -/
theorem noTransactionObservesAnEarlierOne : Obligations.NoTransactionObservesAnEarlierOne := by
  intro i s s' hheld
  obtain ⟨w, hw⟩ := exec_eq_apply i s.host.held
  exact ⟨w.apply s, w.apply s', hw s rfl, hw s' hheld.symm, rfl, rfl, keptOrSame_of_getD w.encIn rfl rfl,
    keptOrSame_of_getD w.encOut rfl rfl, keptOrSame_of_getD w.core rfl rfl, keptOrSame_of_getD w.valIn rfl rfl,
    keptOrSame_of_getD w.valOut rfl rfl, keptOrSame_of_getD w.opdec rfl rfl, keptOrSame_of_getD w.maskgen rfl rfl,
    keptOrSame_of_getD w.addrgen rfl rfl, keptOrSame_of_getD w.xorsum rfl rfl⟩

/-- Settles O40: the driven values do not mention the state before, and each unit's own bundles are driven. -/
theorem outputsDependOnTheTransactionsInputsOnly : Obligations.OutputsDependOnTheTransactionsInputsOnly := by
  refine ⟨fun i p s s' t t' hi ht ht' => ?_, fun o a m s s' t t' ht ht' => ?_,
    fun i s s' t t' hi hheld ht ht' => ?_, fun sent resp s s' t t' ht ht' => ?_⟩
  · rw [exec_encode hi, encodeProcedure_eq_apply] at ht ht'
    cases ht
    cases ht'
    exact ⟨rfl, rfl, rfl, rfl, rfl, rfl, rfl⟩
  · cases ht
    cases ht'
    exact ⟨rfl, rfl⟩
  · obtain ⟨v, o, hexec⟩ := exec_validatorSide hi s.host.held
    cases (hexec s rfl).symm.trans ht
    cases (hexec s' hheld.symm).symm.trans ht'
    exact ⟨rfl, rfl⟩
  · cases ht
    cases ht'
    refine ⟨?_, validateProcedure_valOut_eq sent resp s s'⟩
    rw [validateProcedure_eq, validateProcedure_eq sent resp s']

/-- Settles O41: the two sides drive different bundles. -/
theorem encoderAndValidatorTransactionsCommute : Obligations.EncoderAndValidatorTransactionsCommute := by
  intro i j s hi hj
  obtain ⟨w, hvalIn, hvalOut, hw⟩ := exec_encoderSide hi
  obtain ⟨v, o, hvo⟩ := exec_validatorSide hj s.host.held
  refine ⟨w.apply s, _, _, hw s, hvo s rfl, hvo (w.apply s) rfl, ?_⟩
  rw [hw]
  simp [Drive.apply, hvalIn, hvalOut]

end Sys2Proof.Machine
end

section
/-! PROOFS. The host's session (R40): a batch stops at its first error, and writes one canonical frame a card. -/

namespace Sys2Proof.Machine

variable {c : Command} {base card : Byte} {relays cards : List Byte} {answers : List (Option Frame)} {s : State}

/-! ### One card -/

/-- An encode error ends the card before anything is written (R40). -/
theorem sessionCard_of_invalid {p : EncPorts} (hv : (s.encodeProcedure p).encOut.frameValid = false)
    (answer : Option Frame) :
    sessionCard p answer s = ⟨s.encodeProcedure p, [], some (.encode (s.encodeProcedure p).encOut.status)⟩ := by
  simp [sessionCard, hv]

/-- A card's frame is written when the encoder calls it valid, whatever the answer is. -/
theorem sessionCard_written (p : EncPorts) (answer : Option Frame) (s : State) :
    (sessionCard p answer s).written =
      if (s.encodeProcedure p).encOut.frameValid then [(s.encodeProcedure p).encOut.frame] else [] := by
  cases hv : (s.encodeProcedure p).encOut.frameValid with
  | false => rw [sessionCard_of_invalid hv, if_neg Bool.false_ne_true]
  | true =>
    cases answer with
    | none => simp [sessionCard, hv]
    | some r =>
      simp only [sessionCard, hv, Bool.not_true, Bool.false_eq_true, if_false, if_true]
      split_ifs <;> rfl

theorem sessionCard_frameValid {p : EncPorts} {answer : Option Frame} (h : (sessionCard p answer s).error = none) :
    (s.encodeProcedure p).encOut.frameValid = true := by
  cases hv : (s.encodeProcedure p).encOut.frameValid with
  | true => rfl
  | false =>
    rw [sessionCard_of_invalid hv] at h
    cases h

theorem sessionCard_frameCanonical {p : EncPorts} {answer : Option Frame} {f : Frame}
    (h : f ∈ (sessionCard p answer s).written) : frameCanonical f = true := by
  rw [sessionCard_written] at h
  split_ifs at h with hv
  · rw [List.mem_singleton.1 h]
    exact encoderAnswers_frameCanonical (encodeProcedure_answers p s) hv
  · cases h

theorem sessionCard_length_le (p : EncPorts) (answer : Option Frame) (s : State) :
    (sessionCard p answer s).written.length ≤ 1 := by
  rw [sessionCard_written]
  split_ifs <;> simp

theorem sessionCard_length {p : EncPorts} {answer : Option Frame} (h : (sessionCard p answer s).error = none) :
    (sessionCard p answer s).written.length = 1 := by
  rw [sessionCard_written, if_pos (sessionCard_frameValid h), List.length_singleton]

/-! ### The first card of a batch -/

theorem sessionCards_cons_of_error {e : SessionError}
    (h : (sessionCard (cardPorts c base relays card) (answers.headD none) s).error = some e) :
    sessionCards c base relays (card :: cards) answers s =
      sessionCard (cardPorts c base relays card) (answers.headD none) s := by
  simp only [sessionCards, h]
  rw [← h]

/-- Behind a card without an error the batch goes on from the state it left. -/
theorem sessionCards_cons_of_ok
    (h : (sessionCard (cardPorts c base relays card) (answers.headD none) s).error = none) :
    sessionCards c base relays (card :: cards) answers s =
      let first := sessionCard (cardPorts c base relays card) (answers.headD none) s
      let rest := sessionCards c base relays cards answers.tail first.state
      ⟨rest.state, first.written ++ rest.written, rest.error⟩ := by
  simp only [sessionCards, h]

/-! ### The batch -/

/-- Settles O44, by induction on the cards: where the first one fails, the others are not reached. -/
theorem batchStopsAtTheFirstError : Obligations.BatchStopsAtTheFirstError := by
  intro c base relays cards more answers s e he
  induction cards generalizing answers s with
  | nil => cases he
  | cons card cards ih =>
    rw [List.cons_append]
    cases hfirst : (sessionCard (cardPorts c base relays card) (answers.headD none) s).error with
    | some _ => rw [sessionCards_cons_of_error hfirst, sessionCards_cons_of_error hfirst]
    | none =>
      rw [sessionCards_cons_of_ok hfirst] at he ⊢
      rw [sessionCards_cons_of_ok hfirst]
      simp only [ih answers.tail _ he]

theorem sessionCards_frameCanonical {f : Frame} (h : f ∈ (sessionCards c base relays cards answers s).written) :
    frameCanonical f = true := by
  induction cards generalizing answers s with
  | nil => cases h
  | cons card cards ih =>
    cases hfirst : (sessionCard (cardPorts c base relays card) (answers.headD none) s).error with
    | some _ =>
      rw [sessionCards_cons_of_error hfirst] at h
      exact sessionCard_frameCanonical h
    | none =>
      rw [sessionCards_cons_of_ok hfirst] at h
      rcases List.mem_append.1 h with h | h
      · exact sessionCard_frameCanonical h
      · exact ih h

theorem sessionCards_length_le (cards : List Byte) (answers : List (Option Frame)) (s : State) :
    (sessionCards c base relays cards answers s).written.length ≤ cards.length := by
  induction cards generalizing answers s with
  | nil => exact le_rfl
  | cons card cards ih =>
    have hcard := sessionCard_length_le (cardPorts c base relays card) (answers.headD none) s
    cases hfirst : (sessionCard (cardPorts c base relays card) (answers.headD none) s).error with
    | some _ =>
      rw [sessionCards_cons_of_error hfirst, List.length_cons]
      omega
    | none =>
      rw [sessionCards_cons_of_ok hfirst, List.length_append, List.length_cons, Nat.add_comm]
      exact Nat.add_le_add (ih _ _) hcard

theorem sessionCards_length (h : (sessionCards c base relays cards answers s).error = none) :
    (sessionCards c base relays cards answers s).written.length = cards.length := by
  induction cards generalizing answers s with
  | nil => rfl
  | cons card cards ih =>
    cases hfirst : (sessionCard (cardPorts c base relays card) (answers.headD none) s).error with
    | some _ =>
      rw [sessionCards_cons_of_error hfirst, hfirst] at h
      cases h
    | none =>
      rw [sessionCards_cons_of_ok hfirst] at h ⊢
      rw [List.length_append, sessionCard_length hfirst, ih h, List.length_cons, Nat.add_comm]

/-- Settles O45: a card writes its frame where the encoder answers it, and only then ends without an error. -/
theorem batchWritesOneCanonicalFramePerCard : Obligations.BatchWritesOneCanonicalFramePerCard :=
  fun _ _ _ cards answers s =>
    ⟨fun _ => sessionCards_frameCanonical, sessionCards_length_le cards answers s, sessionCards_length⟩

end Sys2Proof.Machine
end
